-- ==== Sys2Proof/Word.lean ====
section
/-! DEFINITION. The word types of the SPI frame codec: a frame, an operand and a result are 32 bits, a command word, a CRC and
the accumulator are 8 bits (00_scope.md R6, 10_state.md R20). -/

namespace Sys2Proof

/-- A 32-bit frame, operand `A` or result (00_scope.md R6 `FRAME_W`; 20_memory.md R48). -/
abbrev Word := BitVec 32

/-- An 8-bit command word, CRC byte or accumulator value (00_scope.md R6 `CRC_W`; 30_encoding.md R61). -/
abbrev Byte := BitVec 8

end Sys2Proof
end

