-- ==== Sys2Proof/Syntax.lean ====
section
/-! DEFINITION. The commands of the block, one constructor per row of spec/opcode_table.json (30_encoding.md R65). Each carries
exactly the operand bits its form reads (R62, R63), so a field too wide for its slot cannot occur (40_build_and_crc.md R90). -/

namespace Sys2Proof

/-- The nineteen commands. Every value of this type is well formed: the operand types are the spec's own widths. -/
inductive Instr where
  /-- NOP, cmd 0x00 (60_exceptions.md R151). -/
  | nop
  /-- PACK, cmd 0x10 (40_build_and_crc.md R82): `A[21]`, `A[20:16]`, `A[15:0]`. -/
  | pack (isWrite : Bool) (registerAddress : BitVec 5) (payload : BitVec 16)
  /-- CRC, cmd 0x20 (40_build_and_crc.md R83): the CRC span `A[31:8]`. -/
  | crc (span : BitVec 24)
  /-- VERIFY, cmd 0x30 (41_verify.md R100). -/
  | verify (frame : Word)
  /-- S16, cmd 0x40 (42_decode.md R112). -/
  | s16 (frame : Word)
  /-- U16, cmd 0x41 (42_decode.md R113). -/
  | u16 (frame : Word)
  /-- S8H, cmd 0x42 (42_decode.md R114). -/
  | s8h (frame : Word)
  /-- S8L, cmd 0x43 (42_decode.md R115). -/
  | s8l (frame : Word)
  /-- RSX, cmd 0x50 (42_decode.md R117). -/
  | rsx (frame : Word)
  /-- ADDR, cmd 0x60 (42_decode.md R119). -/
  | addr (frame : Word)
  /-- RW, cmd 0x61 (42_decode.md R120). -/
  | rw (frame : Word)
  /-- ONEHOT, cmd 0x62 (42_decode.md R121). -/
  | onehot (frame : Word)
  /-- FACC, cmd 0x70 (43_filter_frames.md R134): `A[2:0]`, `A[5:3]`, `A[8:6]`. -/
  | facc (ax ay az : BitVec 3)
  /-- FGYU, cmd 0x72 (43_filter_frames.md R135): Rx = `A[14:12]`, Rx2 = `A[11:9]`. -/
  | fgyu (rx rx2 : BitVec 3)
  /-- FGYD, cmd 0x73 (43_filter_frames.md R136): Rz = `A[14:12]`, Rz2 = `A[11:9]`, Ry = `A[20:18]`, Ry2 = `A[17:15]`. -/
  | fgyd (rz rz2 ry ry2 : BitVec 3)
  /-- CRCI, cmd 0x80 (40_build_and_crc.md R84). -/
  | crci
  /-- CRCB, cmd 0x81 (40_build_and_crc.md R85): the input bit `A[0]`. -/
  | crcb (b : Bool)
  /-- CRCF, cmd 0x82 (40_build_and_crc.md R86). -/
  | crcf
  /-- CRCR, cmd 0x83 (40_build_and_crc.md R87). -/
  | crcr
deriving DecidableEq, Repr

end Sys2Proof
end

