-- ==== Sys2Proof/Config.lean ====
section
/-! DEFINITION. What the spec fixes once for the block (00_scope.md R6), the open parameters a model takes as arguments
(00_scope.md R7), and the free values nothing in the model can evaluate. -/

namespace Sys2Proof

/-- `CRC_POLY` (00_scope.md R6): the feedback constant of the CRC step. -/
def Config.crcPoly : Byte := 0x1D#8

/-- `CRC_SEED` (00_scope.md R6). -/
def Config.crcSeed : Byte := 0xFF#8

/-- The two sensor ASICs, each on its own chip-select line (00_scope.md R14 "chip role", 10_state.md R32). -/
inductive ChipRole where
  | uno
  | due
deriving DecidableEq, Repr

/-- The open layout parameters of the filter frames (00_scope.md R7). The source gives none of their values; the spec has a
model take each as an argument, so they stand in the machine's state as one record that no step writes (log 2).
An offset is an integer 0..13; the legality of a whole set is `Params.wellFormed` (43_filter_frames.md R132). -/
structure Params where
  /-- `P_ADDR_FACC`: register address of the accelerometer filter frame. -/
  addrFacc : BitVec 5
  /-- `P_ADDR_FGYU`: register address of the UNO gyro filter frame. -/
  addrFgyu : BitVec 5
  /-- `P_ADDR_FGYD`: register address of the DUE gyro filter frame. -/
  addrFgyd : BitVec 5
  /-- `P_OFF_AX`, `P_OFF_AY`, `P_OFF_AZ`: payload offsets of the accelerometer codes. -/
  offAx : Fin 14
  offAy : Fin 14
  offAz : Fin 14
  /-- `P_OFF_RX`, `P_OFF_RX2`: payload offsets of the UNO gyro codes. -/
  offRx : Fin 14
  offRx2 : Fin 14
  /-- `P_OFF_RZ`, `P_OFF_RZ2`, `P_OFF_RY`, `P_OFF_RY2`: payload offsets of the DUE gyro codes. -/
  offRz : Fin 14
  offRz2 : Fin 14
  offRy : Fin 14
  offRy2 : Fin 14
  /-- `P_FIX_FACC`, `P_FIX_FGYU`, `P_FIX_FGYD`: the payload bits that hold no code. -/
  fixFacc : BitVec 16
  fixFgyu : BitVec 16
  fixFgyd : BitVec 16
deriving DecidableEq, Repr

/-- The example parameter set EX of 95_test_vectors.md section 3: "for arithmetic only", not the sensor's layout (N14). -/
def Params.ex : Params where
  addrFacc := 0x01#5
  addrFgyu := 0x02#5
  addrFgyd := 0x03#5
  offAx := 0
  offAy := 4
  offAz := 8
  offRx := 0
  offRx2 := 4
  offRz := 0
  offRz2 := 4
  offRy := 8
  offRy2 := 12
  fixFacc := 0x0000#16
  fixFgyu := 0x0000#16
  fixFgyd := 0x0000#16

/-- The filter rates of the source (00_scope.md R7 `P_FCODE_MAP`; 91_not_in_source.md N15). -/
inductive FilterRate where
  | hz13
  | hz20
  | hz46
  | hz200
  | hz300
deriving DecidableEq, Repr

/-- `P_FCODE_MAP` (00_scope.md R7): the 3-bit code of each rate. The block does not use it; the host chooses codes
(43_filter_frames.md R131), so it is no part of the machine's state but an argument of the host's helper (log 14). -/
structure FCodeMap where
  hz13 : BitVec 3
  hz20 : BitVec 3
  hz46 : BitVec 3
  hz200 : BitVec 3
  hz300 : BitVec 3
deriving DecidableEq, Repr

/-- The code a map gives a rate. -/
def FCodeMap.code (m : FCodeMap) : FilterRate → BitVec 3
  | .hz13 => m.hz13
  | .hz20 => m.hz20
  | .hz46 => m.hz46
  | .hz200 => m.hz200
  | .hz300 => m.hz300

/-- Free values (70_reset_and_hazards.md R171, 93_implementation_defined.md I12): what each element holds at the k-th
power-up, before the first reset. -/
opaque Config.powerUpRes : Nat → Word
opaque Config.powerUpAcc : Nat → Byte
opaque Config.powerUpCrcok : Nat → Bool
opaque Config.powerUpErr : Nat → Bool

/-- Free value (93_implementation_defined.md I8, I9): the frame a sensor answers a request with, from the number of the run
of the link, all exchanges made before in that run (newest first, each chip and request), the chip and the request. That it
is a function of these is the model's choice (log 10). -/
opaque Config.linkAnswer : Nat → List (ChipRole × Word) → ChipRole → Word → Word

/-- Free value (93_implementation_defined.md I10): what a chip's response slot holds before the first exchange of a run of the
link. -/
opaque Config.linkFirst : Nat → ChipRole → Word

end Sys2Proof
end

