-- ==== Sys2Proof/Machine/Layout.lean ====
section
/-! DEFINITION. Where a filter frame's codes lie in its payload, and the four constraints a parameter set must meet
(43_filter_frames.md R132). -/

namespace Sys2Proof.Machine

/-- The payload bits `[o + 2 : o]` of a code field at offset `o` (43_filter_frames.md R132). -/
def fieldMask (o : Fin 14) : BitVec 16 := 0x7#16 <<< o.val

/-- A 3-bit code placed at offset `o`, without any check of the code (43_filter_frames.md R131, R132). -/
def placeCode (c : BitVec 3) (o : Fin 14) : BitVec 16 := c.setWidth 16 <<< o.val

/-- Constraint 1 of 43_filter_frames.md R132 for one frame kind: no two of its code fields overlap. -/
def fieldsDisjoint : List (Fin 14) → Bool
  | [] => true
  | o :: os => os.all (fun o' => fieldMask o &&& fieldMask o' == 0#16) && fieldsDisjoint os

/-- Constraint 2 of 43_filter_frames.md R132 for one frame kind: the fixed bits have no 1 inside a code field. -/
def fixOutsideFields (fix : BitVec 16) (os : List (Fin 14)) : Bool :=
  os.all fun o => fix &&& fieldMask o == 0#16

/-- The lowest bits an axis's 4-bit slot may have: the nominal-range bit stands "beside" the code (00_scope.md R14), so
directly above it (slot `[o+3:o]`) or directly below it (slot `[o+2:o-1]`), within the 16 payload bits (log 4). -/
def slotBases (o : Fin 14) : List Nat :=
  (if o.val + 3 ≤ 15 then [o.val] else []) ++ (if 1 ≤ o.val then [o.val - 1] else [])

/-- Three 4-bit slots with these lowest bits do not overlap and together fill 12 adjacent bits. -/
def slotsFillTwelve (x y z : Nat) : Bool :=
  let lo := min x (min y z)
  [lo, lo + 4, lo + 8].all fun b => b == x || b == y || b == z

/-- Constraint 3 of 43_filter_frames.md R132: the three accelerometer slots can be laid out as it says. -/
def accelSlotsLegal (ox oy oz : Fin 14) : Bool :=
  (slotBases ox).any fun x => (slotBases oy).any fun y => (slotBases oz).any fun z => slotsFillTwelve x y z

end Sys2Proof.Machine
end

