-- ==== Sys2Proof/WellFormed.lean ====
section
/-! DEFINITION. Well-formedness. A command needs no check: `Instr` holds each operand at the width its form reads (30_encoding.md R62,
40_build_and_crc.md R90), and no code, address or frame is illegal (43_filter_frames.md R131, 20_memory.md R43, 30_encoding.md R68). What can
be ill formed is a parameter set (43_filter_frames.md R132) and a filter-code map (00_scope.md R7). -/

namespace Sys2Proof

/-- The code fields of each frame kind (43_filter_frames.md R132, constraint 4: FGYU has exactly two, FGYD exactly four). -/
def Params.faccFields (p : Params) : List (Fin 14) := [p.offAx, p.offAy, p.offAz]
def Params.fgyuFields (p : Params) : List (Fin 14) := [p.offRx, p.offRx2]
def Params.fgydFields (p : Params) : List (Fin 14) := [p.offRz, p.offRz2, p.offRy, p.offRy2]

/-- A legal parameter set meets all four constraints of 43_filter_frames.md R132 (the fourth by its type). "A model refuses a parameter
set that breaks a constraint": the step does so (log 3). -/
def Params.wellFormed (p : Params) : Bool :=
  (Machine.fieldsDisjoint p.faccFields && Machine.fieldsDisjoint p.fgyuFields && Machine.fieldsDisjoint p.fgydFields) &&
  (Machine.fixOutsideFields p.fixFacc p.faccFields && Machine.fixOutsideFields p.fixFgyu p.fgyuFields &&
    Machine.fixOutsideFields p.fixFgyd p.fgydFields) &&
  Machine.accelSlotsLegal p.offAx p.offAy p.offAz

/-- A filter-code map is injective (00_scope.md R7, `P_FCODE_MAP`). -/
def FCodeMap.wellFormed (m : FCodeMap) : Bool :=
  decide [m.hz13, m.hz20, m.hz46, m.hz200, m.hz300].Nodup

end Sys2Proof
end

