-- ==== Sys2Proof/Decode.lean ====
section
/-! DEFINITION. The decoder from the two words the host presents (command word and operand) to a command, total and rejecting
reserved words by name; after it the encoder, written from the same tables (30_encoding.md R61 to R67, R69). -/

namespace Sys2Proof

/-- What is on the ports `cmd` and `a` when a command is accepted (30_encoding.md R61): one byte plus one operand word. -/
structure Command where
  cmd : Byte
  a : Word
deriving DecidableEq, Repr

/-- What a command word is: a defined command, or one of the 237 reserved words (30_encoding.md R65, R66). -/
inductive Decoded where
  | command (i : Instr)
  | reservedCommand (cmd : Byte)
deriving DecidableEq, Repr

/-- Exact match on the 8-bit command word (30_encoding.md R65, R67); the operand bits each form reads are R62 and R63. -/
def decode (cmd : Byte) (a : Word) : Decoded :=
  match cmd with
  | 0x00#8 => .command .nop
  | 0x10#8 => .command (.pack (a.getLsbD 21) (a.extractLsb' 16 5) (a.extractLsb' 0 16))
  | 0x20#8 => .command (.crc (a.extractLsb' 8 24))
  | 0x30#8 => .command (.verify a)
  | 0x40#8 => .command (.s16 a)
  | 0x41#8 => .command (.u16 a)
  | 0x42#8 => .command (.s8h a)
  | 0x43#8 => .command (.s8l a)
  | 0x50#8 => .command (.rsx a)
  | 0x60#8 => .command (.addr a)
  | 0x61#8 => .command (.rw a)
  | 0x62#8 => .command (.onehot a)
  | 0x70#8 => .command (.facc (a.extractLsb' 0 3) (a.extractLsb' 3 3) (a.extractLsb' 6 3))
  | 0x72#8 => .command (.fgyu (a.extractLsb' 12 3) (a.extractLsb' 9 3))
  | 0x73#8 => .command (.fgyd (a.extractLsb' 12 3) (a.extractLsb' 9 3) (a.extractLsb' 18 3) (a.extractLsb' 15 3))
  | 0x80#8 => .command .crci
  | 0x81#8 => .command (.crcb (a.getLsbD 0))
  | 0x82#8 => .command .crcf
  | 0x83#8 => .command .crcr
  | _ => .reservedCommand cmd

/-- The command word of each command (30_encoding.md R65). -/
def Instr.cmdWord : Instr → Byte
  | .nop => 0x00#8
  | .pack _ _ _ => 0x10#8
  | .crc _ => 0x20#8
  | .verify _ => 0x30#8
  | .s16 _ => 0x40#8
  | .u16 _ => 0x41#8
  | .s8h _ => 0x42#8
  | .s8l _ => 0x43#8
  | .rsx _ => 0x50#8
  | .addr _ => 0x60#8
  | .rw _ => 0x61#8
  | .onehot _ => 0x62#8
  | .facc _ _ _ => 0x70#8
  | .fgyu _ _ => 0x72#8
  | .fgyd _ _ _ _ => 0x73#8
  | .crci => 0x80#8
  | .crcb _ => 0x81#8
  | .crcf => 0x82#8
  | .crcr => 0x83#8

/-- The operand word of each command, bits outside its form written as 0 (30_encoding.md R62, R63, R69; log 7). -/
def Instr.operandWord : Instr → Word
  | .nop => 0#32
  | .pack isWrite registerAddress payload => 0#10 ++ BitVec.ofBool isWrite ++ registerAddress ++ payload
  | .crc span => span ++ 0#8
  | .verify f => f
  | .s16 f => f
  | .u16 f => f
  | .s8h f => f
  | .s8l f => f
  | .rsx f => f
  | .addr f => f
  | .rw f => f
  | .onehot f => f
  | .facc ax ay az => 0#23 ++ az ++ ay ++ ax
  | .fgyu rx rx2 => 0#17 ++ rx ++ rx2 ++ 0#9
  | .fgyd rz rz2 ry ry2 => 0#11 ++ ry ++ ry2 ++ rz ++ rz2 ++ 0#9
  | .crci => 0#32
  | .crcb b => (BitVec.ofBool b).setWidth 32
  | .crcf => 0#32
  | .crcr => 0#32

/-- The words of a command. -/
def encode (i : Instr) : Command := ⟨i.cmdWord, i.operandWord⟩

/-- The operand bits a command word reads (30_encoding.md R62, R63; 43_filter_frames.md R134 to R136); a reserved word reads none. -/
def operandMask (cmd : Byte) : Word :=
  match cmd with
  | 0x10#8 => 0x003FFFFF#32
  | 0x20#8 => 0xFFFFFF00#32
  | 0x30#8 => 0xFFFFFFFF#32
  | 0x40#8 => 0xFFFFFFFF#32
  | 0x41#8 => 0xFFFFFFFF#32
  | 0x42#8 => 0xFFFFFFFF#32
  | 0x43#8 => 0xFFFFFFFF#32
  | 0x50#8 => 0xFFFFFFFF#32
  | 0x60#8 => 0xFFFFFFFF#32
  | 0x61#8 => 0xFFFFFFFF#32
  | 0x62#8 => 0xFFFFFFFF#32
  | 0x70#8 => 0x000001FF#32
  | 0x72#8 => 0x00007E00#32
  | 0x73#8 => 0x001FFE00#32
  | 0x81#8 => 0x00000001#32
  | _ => 0x00000000#32

/-- The reserved command words, as the ranges of 30_encoding.md R66 list them. -/
def reservedWord (cmd : Byte) : Bool :=
  let n := cmd.toNat
  (0x01 ≤ n && n ≤ 0x0F) || (0x11 ≤ n && n ≤ 0x1F) || (0x21 ≤ n && n ≤ 0x2F) || (0x31 ≤ n && n ≤ 0x3F) ||
  (0x44 ≤ n && n ≤ 0x4F) || (0x51 ≤ n && n ≤ 0x5F) || (0x63 ≤ n && n ≤ 0x6F) || n == 0x71 ||
  (0x74 ≤ n && n ≤ 0x7F) || (0x84 ≤ n && n ≤ 0x8F) || (0x90 ≤ n && n ≤ 0xFF)

/-- The command that a number of `nbits` bits stands for, the command word in bits 7..0 and the operand in bits 39..8; every bit
at `nbits` and above is 0 (log 8). -/
def commandOfTableWord (nbits w : Nat) : Command :=
  let v := w % 2 ^ nbits
  ⟨BitVec.ofNat 8 v, BitVec.ofNat 32 (v / 2 ^ 8)⟩

/-- The command the decoder reads from such a number (log 8). -/
def decodeTableWord (nbits w : Nat) : Option Instr :=
  match decode (commandOfTableWord nbits w).cmd (commandOfTableWord nbits w).a with
  | .command i => some i
  | .reservedCommand _ => none

end Sys2Proof
end

