-- ==== Sys2Proof/Machine/Crc.lean ====
section
/-! DEFINITION. The CRC functions (40_build_and_crc.md R80, R81), and the byte-wise equivalent of 95_test_vectors.md section 2.1. -/

namespace Sys2Proof.Machine

/-- `crc8_step(b, s)` (40_build_and_crc.md R80): shift left by 1; if the top bit of the PRIOR accumulator XORed with the input bit
was set, XOR with 0x1D. -/
def crc8Step (b : Bool) (s : Byte) : Byte :=
  let t := s.getLsbD 7 ^^ b
  let s' := s <<< 1
  if t then s' ^^^ Config.crcPoly else s'

/-- Fold the low `n` bits of a CRC span into a state, from bit `n - 1` down to bit 0 (40_build_and_crc.md R81). -/
def crcFold (t : BitVec 24) : Nat → Byte → Byte
  | 0, s => s
  | n + 1, s => crcFold t n (crc8Step (t.getLsbD n) s)

/-- `crc24(t)` (40_build_and_crc.md R81): seed, the 24 bits most significant first, then the complement. -/
def crc24 (t : BitVec 24) : Byte := ~~~ crcFold t 24 Config.crcSeed

/-- `T[x]` (95_test_vectors.md 2.1): the state after folding eight 0 bits into state `x`. -/
def crcTable (x : Byte) : Byte :=
  crc8Step false (crc8Step false (crc8Step false (crc8Step false
    (crc8Step false (crc8Step false (crc8Step false (crc8Step false x)))))))

/-- The byte-wise form of `crc24` (95_test_vectors.md 2.1). -/
def crc24Bytewise (t : BitVec 24) : Byte :=
  ~~~ crcTable (crcTable (crcTable (Config.crcSeed ^^^ t.extractLsb' 16 8) ^^^ t.extractLsb' 8 8) ^^^ t.extractLsb' 0 8)

end Sys2Proof.Machine
end

