-- ==== Sys2Proof/Machine/Operands.lean ====
section
/-! DEFINITION. The fields of a 32-bit frame (00_scope.md R13, 30_encoding.md R60, 42_decode.md R111), the frames the block builds
(40_build_and_crc.md R82, R89; 43_filter_frames.md R133) and the order of a frame on the wire (20_memory.md R44). -/

namespace Sys2Proof.Machine

/-- `f.rw` = f[31]: 1 = write, 0 = read. -/
def frameRw (f : Word) : Bool := f.getLsbD 31

/-- `f.addr` = f[30:26], the register address. -/
def frameAddr (f : Word) : BitVec 5 := f.extractLsb' 26 5

/-- `f.rs` = f[25:24], the return-status field; bit 25 is the more significant. -/
def frameRs (f : Word) : BitVec 2 := f.extractLsb' 24 2

/-- `f.hdr` = f[31:24], the header. -/
def frameHdr (f : Word) : Byte := f.extractLsb' 24 8

/-- `f.payload` = f[23:8]. -/
def framePayload (f : Word) : BitVec 16 := f.extractLsb' 8 16

/-- `f.hi` = f[23:16], the payload's high byte. -/
def frameHi (f : Word) : Byte := f.extractLsb' 16 8

/-- `f.lo` = f[15:8], the payload's low byte. -/
def frameLo (f : Word) : Byte := f.extractLsb' 8 8

/-- `f.crc` = f[7:0], the embedded CRC byte. -/
def frameCrc (f : Word) : Byte := f.extractLsb' 0 8

/-- `f.top24` = f[31:8], the CRC span. -/
def frameTop24 (f : Word) : BitVec 24 := f.extractLsb' 8 24

/-- `zext_32` (00_scope.md R10). -/
def zext32 {n : Nat} (v : BitVec n) : Word := v.zeroExtend 32

/-- `sext_32` (00_scope.md R10): two's complement. -/
def sext32 {n : Nat} (v : BitVec n) : Word := v.signExtend 32

/-- The CRC span of a built frame: R/W bit, address, status bits 00, payload (40_build_and_crc.md R82, R89). -/
def requestSpan (isWrite : Bool) (address : BitVec 5) (payload : BitVec 16) : BitVec 24 :=
  BitVec.ofBool isWrite ++ address ++ 0b00#2 ++ payload

/-- A CRC span with its CRC appended as the low byte (30_encoding.md R60). -/
def withCrc (t : BitVec 24) : Word := t ++ crc24 t

/-- The source's `buildFrame(isWrite, registerAddress, payload)` (40_build_and_crc.md R82). -/
def buildFrame (isWrite : Bool) (registerAddress : BitVec 5) (payload : BitVec 16) : Word :=
  withCrc (requestSpan isWrite registerAddress payload)

/-- `filter_frame(addr, payload)` (43_filter_frames.md R133): a write frame. -/
def filterFrame (address : BitVec 5) (payload : BitVec 16) : Word :=
  withCrc (requestSpan true address payload)

/-- The bits of a frame in the order they go over the wire: bit 31 first, bit 0 last (20_memory.md R44). -/
def wireBits (f : Word) : List Bool :=
  (List.range 32).map fun k => f.getLsbD (31 - k)

/-- The four bytes of a frame in wire order: header, payload high byte, payload low byte, CRC (20_memory.md R44). -/
def wireBytes (f : Word) : List Byte := [frameHdr f, frameHi f, frameLo f, frameCrc f]

end Sys2Proof.Machine
end

