-- ==== Sys2Proof/Machine/Flags.lean ====
section
/-! DEFINITION. The CRC annotation every frame-reading command records (42_decode.md R110), VERIFY's report (41_verify.md R100), and
the decode of the return-status field (42_decode.md R116 to R118). -/

namespace Sys2Proof.Machine

/-- `A[7:0] == crc24(A[31:8])`, the value written to `CRCOK` (42_decode.md R110, 41_verify.md R100). -/
def crcMatches (f : Word) : Bool := frameCrc f == crc24 (frameTop24 f)

/-- What VERIFY writes to `RES` (41_verify.md R100): embedded CRC, recomputed CRC and ok. -/
def verifyReport (f : Word) : Word :=
  0x00#8 ++ frameCrc f ++ crc24 (frameTop24 f) ++ 0#7 ++ BitVec.ofBool (crcMatches f)

/-- The four return-status codes (42_decode.md R116). -/
inductive ReturnStatus where
  | IN
  | OK
  | ST
  | ER
deriving DecidableEq, Repr

/-- The code a 2-bit return-status field holds (42_decode.md R116): OK = 1 is the source's, the other numbers are the spec's
decision D19 (log 6). -/
def returnStatus (rs : BitVec 2) : ReturnStatus :=
  match rs with
  | 0b00#2 => .IN
  | 0b01#2 => .OK
  | 0b10#2 => .ST
  | 0b11#2 => .ER

/-- The health flag NOT_OK: any code other than OK (42_decode.md R118; 90_conflicts.md C2). -/
def notOk (rs : BitVec 2) : Bool := rs != 0b01#2

/-- What RSX writes to `RES` (42_decode.md R117): NOT_OK, IS_ER, IS_ST, IS_OK, IS_IN, rs, from bit 6 down. -/
def statusWord (rs : BitVec 2) : Word :=
  0#25 ++ BitVec.ofBool (notOk rs) ++ BitVec.ofBool (rs == 0b11#2) ++ BitVec.ofBool (rs == 0b10#2) ++
    BitVec.ofBool (rs == 0b01#2) ++ BitVec.ofBool (rs == 0b00#2) ++ rs

end Sys2Proof.Machine
end

