-- ==== Sys2Proof/Machine/State.lean ====
section
/-! DEFINITION. The machine's state as plain data: the four state elements of 10_state.md R20, and two fields of the model's own, the
parameters the block is built with (log 2) and the samples its input ports will show (log 1). -/

namespace Sys2Proof.Machine

/-- The input ports at one rising edge of `clk` (10_state.md R25). -/
structure PortSample where
  /-- `rst`: synchronous reset, active high. -/
  rst : Bool
  /-- `cmd_valid`: a command is presented in this cycle. -/
  cmdValid : Bool
  /-- `cmd`: the command word. -/
  cmd : Byte
  /-- `a`: the operand `A`. -/
  a : Word
deriving DecidableEq, Repr

/-- The state (10_state.md R20). -/
structure State where
  /-- `RES`, the result register (10_state.md R21). -/
  res : Word
  /-- `ACC`, the CRC accumulator (10_state.md R22). -/
  acc : Byte
  /-- `CRCOK`, the CRC annotation flag (10_state.md R23). -/
  crcok : Bool
  /-- `ERR`, the sticky command error (10_state.md R24). -/
  err : Bool
  /-- The model's own: the open parameters the block is built with (00_scope.md R7). No step writes it (10_state.md R20). -/
  params : Params
  /-- The model's own: what the host drives on the input ports at the coming rising edges, oldest first (log 1). -/
  inputs : List PortSample
deriving DecidableEq, Repr

/-- Nothing stops the machine with a fault: the block has one exception, ReservedCommand, which only sets `ERR` and whose
command has a next state (60_exceptions.md R150, R152); so this type has no constructor (log 15). -/
inductive Fault where
deriving DecidableEq, Repr

/-- Why a step may be refused. -/
inductive Refusal where
  /-- Raised by an arm of `exec` for a command that has no meaning yet; no arm does. Safe. -/
  | notModelled (mnemonic : String)
  /-- Raised by `step` when the parameter set breaks a constraint of 43_filter_frames.md R132: "A model refuses a parameter set
  that breaks a constraint" (log 3). Safe: no block has such a set. -/
  | illegalParameters
deriving DecidableEq, Repr

/-- The machine right after reset (10_state.md R30), with the example parameter set EX (log 2) and nothing presented yet (log 1). -/
def State.reset : State where
  res := 0x00000000#32
  acc := 0xFF#8
  crcok := false
  err := false
  params := Params.ex
  inputs := []

end Sys2Proof.Machine
end

