-- ==== Sys2Proof/Machine/Ops.lean ====
section
/-! DEFINITION. The named operations on the state: the writes of each element, the one exception and the reset that alone clears its
record, the output ports, and the sampling of the input ports. -/

namespace Sys2Proof.Machine

/-- `RES <- v` (00_scope.md R11). -/
def writeRes (v : Word) (s : State) : State := { s with res := v }

/-- `ACC <- v` (00_scope.md R11). -/
def writeAcc (v : Byte) (s : State) : State := { s with acc := v }

/-- `CRCOK <- b` (00_scope.md R11). -/
def writeCrcok (b : Bool) (s : State) : State := { s with crcok := b }

/-- What every frame-reading command does: `RES <- v`, and `CRCOK` records the check of frame `f` (42_decode.md R110, 41_verify.md
R100). -/
def readFrame (f v : Word) (s : State) : State := writeCrcok (crcMatches f) (writeRes v s)

/-- `raise ReservedCommand(cmd)` (60_exceptions.md R150), the block's one exception: `ERR <- 1`; neither the command word nor `A` is
recorded and nothing else changes. There is no trap entry and no return (R154). -/
def raiseReservedCommand (_cmd : Byte) (s : State) : State := { s with err := true }

/-- Reset at a rising edge (70_reset_and_hazards.md R170, 10_state.md R30): the four elements take their reset values; no parameter
is changed, and what the host drives later is not the block's. -/
def applyReset (s : State) : State :=
  { s with res := State.reset.res, acc := State.reset.acc, crcok := State.reset.crcok, err := State.reset.err }

/-- The state at the k-th power-up, before the first reset: any value in each element (70_reset_and_hazards.md R171; log 5). -/
def State.powerUp (k : Nat) (p : Params) (inputs : List PortSample) : State where
  res := Config.powerUpRes k
  acc := Config.powerUpAcc k
  crcok := Config.powerUpCrcok k
  err := Config.powerUpErr k
  params := p
  inputs := inputs

/-- Output port `res` (10_state.md R25). -/
def State.resPort (s : State) : Word := s.res

/-- Output port `crcok` (10_state.md R25). -/
def State.crcokPort (s : State) : BitVec 1 := BitVec.ofBool s.crcok

/-- Output port `err` (10_state.md R25). -/
def State.errPort (s : State) : BitVec 1 := BitVec.ofBool s.err

/-- A cycle in which the host presents nothing: `rst` = 0, `cmd_valid` = 0 (30_encoding.md R61). -/
def PortSample.idle : PortSample := ⟨false, false, 0#8, 0#32⟩

/-- A cycle in which the host presents a command. -/
def PortSample.ofCommand (c : Command) : PortSample := ⟨false, true, c.cmd, c.a⟩

/-- The sample the input ports show at this edge, and the state with it consumed; an idle sample once the list is used up (log 1). -/
def sampleInputs (s : State) : PortSample × State :=
  match s.inputs with
  | [] => (PortSample.idle, s)
  | p :: ps => (p, { s with inputs := ps })

/-- The host presents commands, one per cycle, after what it has already lined up (20_memory.md R51, 95_test_vectors.md section 5). -/
def State.present (s : State) (cs : List Command) : State :=
  { s with inputs := s.inputs ++ cs.map PortSample.ofCommand }

end Sys2Proof.Machine
end

