-- ==== Sys2Proof/Machine/Address.lean ====
section
/-! DEFINITION. The meanings of the register-address decoder's ADDR, RW and ONEHOT (42_decode.md R119 to R121). -/

namespace Sys2Proof.Machine

/-- ADDR: the register address (42_decode.md R119). -/
def execAddr (f : Word) (s : State) : Host.Outcome State Fault Refusal := .next (readFrame f (zext32 (frameAddr f)) s)

/-- RW: the read/write bit (42_decode.md R120). -/
def execRw (f : Word) (s : State) : Host.Outcome State Fault Refusal :=
  .next (readFrame f (zext32 (BitVec.ofBool (frameRw f))) s)

/-- ONEHOT: one of 32 select lines (42_decode.md R121). -/
def execOnehot (f : Word) (s : State) : Host.Outcome State Fault Refusal :=
  .next (readFrame f (0x00000001#32 <<< (frameAddr f).toNat) s)

end Sys2Proof.Machine
end

