-- ==== Sys2Proof/Machine/Build.lean ====
section
/-! DEFINITION. The meanings of PACK and CRC (40_build_and_crc.md R82, R83). -/

namespace Sys2Proof.Machine

/-- PACK: build a frame (40_build_and_crc.md R82). -/
def execPack (isWrite : Bool) (registerAddress : BitVec 5) (payload : BitVec 16) (s : State) :
    Host.Outcome State Fault Refusal :=
  .next (writeRes (buildFrame isWrite registerAddress payload) s)

/-- CRC: the CRC a frame should carry (40_build_and_crc.md R83). -/
def execCrc (span : BitVec 24) (s : State) : Host.Outcome State Fault Refusal :=
  .next (writeRes (zext32 (crc24 span)) s)

end Sys2Proof.Machine
end

