-- ==== Sys2Proof/Machine/Extract.lean ====
section
/-! DEFINITION. The meanings of the value extractors S16, U16, S8H, S8L (42_decode.md R112 to R115) and of the status-field extractor
RSX (42_decode.md R117). -/

namespace Sys2Proof.Machine

/-- S16: the payload, sign-extended (42_decode.md R112). -/
def execS16 (f : Word) (s : State) : Host.Outcome State Fault Refusal := .next (readFrame f (sext32 (framePayload f)) s)

/-- U16: the payload, zero-extended (42_decode.md R113). -/
def execU16 (f : Word) (s : State) : Host.Outcome State Fault Refusal := .next (readFrame f (zext32 (framePayload f)) s)

/-- S8H: the payload's high byte, sign-extended (42_decode.md R114). -/
def execS8h (f : Word) (s : State) : Host.Outcome State Fault Refusal := .next (readFrame f (sext32 (frameHi f)) s)

/-- S8L: the payload's low byte, sign-extended (42_decode.md R115). -/
def execS8l (f : Word) (s : State) : Host.Outcome State Fault Refusal := .next (readFrame f (sext32 (frameLo f)) s)

/-- RSX: the return-status field, decoded (42_decode.md R117). -/
def execRsx (f : Word) (s : State) : Host.Outcome State Fault Refusal := .next (readFrame f (statusWord (frameRs f)) s)

end Sys2Proof.Machine
end

