-- ==== Sys2Proof/Machine/Filter.lean ====
section
/-! DEFINITION. The meanings of the filter-frame packers FACC, FGYU and FGYD (43_filter_frames.md R134 to R136). The layout is whatever
parameter set the block is built with; a set that breaks a constraint is refused by the step (log 3). -/

namespace Sys2Proof.Machine

/-- The payload of an accelerometer filter frame (43_filter_frames.md R134). -/
def faccPayload (p : Params) (ax ay az : BitVec 3) : BitVec 16 :=
  p.fixFacc ||| placeCode ax p.offAx ||| placeCode ay p.offAy ||| placeCode az p.offAz

/-- The payload of a UNO gyro filter frame (43_filter_frames.md R135). -/
def fgyuPayload (p : Params) (rx rx2 : BitVec 3) : BitVec 16 :=
  p.fixFgyu ||| placeCode rx p.offRx ||| placeCode rx2 p.offRx2

/-- The payload of a DUE gyro filter frame (43_filter_frames.md R136). -/
def fgydPayload (p : Params) (rz rz2 ry ry2 : BitVec 3) : BitVec 16 :=
  p.fixFgyd ||| placeCode rz p.offRz ||| placeCode rz2 p.offRz2 ||| placeCode ry p.offRy ||| placeCode ry2 p.offRy2

/-- FACC: accelerometer filter frame (43_filter_frames.md R134). -/
def execFacc (ax ay az : BitVec 3) (s : State) : Host.Outcome State Fault Refusal :=
  .next (writeRes (filterFrame s.params.addrFacc (faccPayload s.params ax ay az)) s)

/-- FGYU: gyro filter frame, UNO layout (43_filter_frames.md R135). -/
def execFgyu (rx rx2 : BitVec 3) (s : State) : Host.Outcome State Fault Refusal :=
  .next (writeRes (filterFrame s.params.addrFgyu (fgyuPayload s.params rx rx2)) s)

/-- FGYD: gyro filter frame, DUE layout (43_filter_frames.md R136). -/
def execFgyd (rz rz2 ry ry2 : BitVec 3) (s : State) : Host.Outcome State Fault Refusal :=
  .next (writeRes (filterFrame s.params.addrFgyd (fgydPayload s.params rz rz2 ry ry2)) s)

end Sys2Proof.Machine
end

