-- ==== Sys2Proof/Machine/Serial.lean ====
section
/-! DEFINITION. The meanings of the bit-serial CRC commands CRCI, CRCB, CRCF and CRCR (40_build_and_crc.md R84 to R87). -/

namespace Sys2Proof.Machine

/-- CRCI: load the seed (40_build_and_crc.md R84). -/
def execCrci (s : State) : Host.Outcome State Fault Refusal := .next (writeAcc Config.crcSeed s)

/-- CRCB: fold one input bit into the accumulator (40_build_and_crc.md R85). -/
def execCrcb (b : Bool) (s : State) : Host.Outcome State Fault Refusal := .next (writeAcc (crc8Step b s.acc) s)

/-- CRCF: read the finished CRC, `ACC` unchanged (40_build_and_crc.md R86). -/
def execCrcf (s : State) : Host.Outcome State Fault Refusal := .next (writeRes (zext32 (~~~ s.acc)) s)

/-- CRCR: read the raw accumulator, `ACC` unchanged (40_build_and_crc.md R87). -/
def execCrcr (s : State) : Host.Outcome State Fault Refusal := .next (writeRes (zext32 s.acc) s)

end Sys2Proof.Machine
end

