-- ==== Sys2Proof/Machine/System.lean ====
section
/-! DEFINITION. The meaning of NOP (60_exceptions.md R151). -/

namespace Sys2Proof.Machine

/-- NOP: no state changes (60_exceptions.md R151). -/
def execNop (s : State) : Host.Outcome State Fault Refusal := .next s

end Sys2Proof.Machine
end

