-- ==== Sys2Proof/Machine/Verify.lean ====
section
/-! DEFINITION. The meaning of VERIFY (41_verify.md R100). -/

namespace Sys2Proof.Machine

/-- VERIFY: check a frame's CRC; a mismatch is a result, not an exception (41_verify.md R100, R103). -/
def execVerify (f : Word) (s : State) : Host.Outcome State Fault Refusal := .next (readFrame f (verifyReport f) s)

end Sys2Proof.Machine
end

