-- ==== Sys2Proof/Machine/Dispatch.lean ====
section
/-! DEFINITION. One arm per command, each one direct call of its meaning. -/

namespace Sys2Proof.Machine

def exec (i : Instr) (s : State) : Host.Outcome State Fault Refusal :=
  match i with
  | .nop => Sys2Proof.Machine.execNop s
  | .pack isWrite registerAddress payload => Sys2Proof.Machine.execPack isWrite registerAddress payload s
  | .crc span => Sys2Proof.Machine.execCrc span s
  | .verify f => Sys2Proof.Machine.execVerify f s
  | .s16 f => Sys2Proof.Machine.execS16 f s
  | .u16 f => Sys2Proof.Machine.execU16 f s
  | .s8h f => Sys2Proof.Machine.execS8h f s
  | .s8l f => Sys2Proof.Machine.execS8l f s
  | .rsx f => Sys2Proof.Machine.execRsx f s
  | .addr f => Sys2Proof.Machine.execAddr f s
  | .rw f => Sys2Proof.Machine.execRw f s
  | .onehot f => Sys2Proof.Machine.execOnehot f s
  | .facc ax ay az => Sys2Proof.Machine.execFacc ax ay az s
  | .fgyu rx rx2 => Sys2Proof.Machine.execFgyu rx rx2 s
  | .fgyd rz rz2 ry ry2 => Sys2Proof.Machine.execFgyd rz rz2 ry ry2 s
  | .crci => Sys2Proof.Machine.execCrci s
  | .crcb b => Sys2Proof.Machine.execCrcb b s
  | .crcf => Sys2Proof.Machine.execCrcf s
  | .crcr => Sys2Proof.Machine.execCrcr s

end Sys2Proof.Machine
end

