-- ==== Sys2Proof/Machine/Interface.lean ====
section
/-! DEFINITION. The command interface: what one rising edge of `clk` does (30_encoding.md R61, 60_exceptions.md R153,
70_reset_and_hazards.md R170, R173). `step` only calls it. -/

namespace Sys2Proof.Machine

/-- Accept a command: the meaning of a defined word, the exception of a reserved one (30_encoding.md R65 to R67, 60_exceptions.md R150). -/
def acceptCommand (cmd : Byte) (a : Word) (s : State) : Host.Outcome State Fault Refusal :=
  match decode cmd a with
  | .command i => exec i s
  | .reservedCommand c => .next (raiseReservedCommand c s)

/-- One rising edge with these inputs: reset wins over a command of the same cycle (60_exceptions.md R153, 70_reset_and_hazards.md R170);
with `cmd_valid` = 0 the block does nothing (30_encoding.md R61). -/
def clockEdge (p : PortSample) (s : State) : Host.Outcome State Fault Refusal :=
  if p.rst then .next (applyReset s)
  else if p.cmdValid then acceptCommand p.cmd p.a s
  else .next s

/-- Sample the input ports and take the edge; a model refuses a parameter set that breaks a constraint (43_filter_frames.md R132; log 3). -/
def clockTick (s : State) : Host.Outcome State Fault Refusal :=
  if s.params.wellFormed then clockEdge (sampleInputs s).1 (sampleInputs s).2
  else .refused .illegalParameters

end Sys2Proof.Machine
end

