-- ==== Sys2Proof/Machine/Step.lean ====
section
/-! DEFINITION. One step of the machine: one rising edge of `clk` (70_reset_and_hazards.md R173). -/

namespace Sys2Proof.Machine

/-- One rising edge. -/
def step (s : State) : Host.Outcome State Fault Refusal := clockTick s

/-- `s` with a command presented at the very next edge: the next sample of the input ports is replaced by one that presents the
command of `commandOfTableWord nbits w` (log 8). -/
def State.withFetchWord (s : State) (nbits w : Nat) : State :=
  { s with inputs := PortSample.ofCommand (commandOfTableWord nbits w) :: s.inputs.drop 1 }

end Sys2Proof.Machine
end

