-- ==== Sys2Proof/Machine/Assembler.lean ====
section
/-! DEFINITION. The assembly forms of 30_encoding.md R69 and the pseudo-instructions of R70: from a program's text to the command words
and operands a host presents. Points the spec leaves open about the text are log 9. -/

namespace Sys2Proof.Machine

/-- The mnemonics of the source text: the nineteen commands and the five pseudo-instructions (30_encoding.md R65, R70). -/
inductive Mnemonic where
  | nop | pack | crc | verify | s16 | u16 | s8h | s8l | rsx | addr | rw | onehot | facc | fgyu | fgyd | crci | crcb | crcf | crcr
  | write | read | setnormal | seteoi | crcser
deriving DecidableEq, Repr

/-- How each mnemonic is spelled. -/
def mnemonicTable : List (List Char × Mnemonic) :=
  [("NOP".toList, .nop), ("PACK".toList, .pack), ("CRC".toList, .crc), ("VERIFY".toList, .verify),
   ("S16".toList, .s16), ("U16".toList, .u16), ("S8H".toList, .s8h), ("S8L".toList, .s8l), ("RSX".toList, .rsx)] ++
  [("ADDR".toList, .addr), ("RW".toList, .rw), ("ONEHOT".toList, .onehot), ("FACC".toList, .facc),
   ("FGYU".toList, .fgyu), ("FGYD".toList, .fgyd), ("CRCI".toList, .crci), ("CRCB".toList, .crcb),
   ("CRCF".toList, .crcf), ("CRCR".toList, .crcr)] ++
  [("WRITE".toList, .write), ("READ".toList, .read), ("SETNORMAL".toList, .setnormal), ("SETEOI".toList, .seteoi),
   ("CRCSER".toList, .crcser)]

/-- One source line: a mnemonic, whether its operand is written `#imm32`, and its operands' values. -/
structure SourceLine where
  mnemonic : Mnemonic
  immediate : Bool
  operands : List Nat
deriving DecidableEq, Repr

/-- The operands a form takes and the values they may have (30_encoding.md R69, R70). `PACK rw, addr, data` reads `rw[0]`, `addr[4:0]`,
`data[15:0]` of its operands, so any value goes; a frame is a 32-bit literal, `b` is 0 or 1, a filter code is 0..7 (43_filter_frames.md
R131), a CRC span has 24 bits. -/
def SourceLine.wellFormed (l : SourceLine) : Bool :=
  match l.mnemonic, l.immediate, l.operands with
  | .nop, false, [] => true
  | .crci, false, [] => true
  | .crcf, false, [] => true
  | .crcr, false, [] => true
  | .pack, false, [_, _, _] => true
  | .crc, false, [f] => decide (f < 2 ^ 32)
  | .verify, false, [f] => decide (f < 2 ^ 32)
  | .s16, false, [f] => decide (f < 2 ^ 32)
  | .u16, false, [f] => decide (f < 2 ^ 32)
  | .s8h, false, [f] => decide (f < 2 ^ 32)
  | .s8l, false, [f] => decide (f < 2 ^ 32)
  | .rsx, false, [f] => decide (f < 2 ^ 32)
  | .addr, false, [f] => decide (f < 2 ^ 32)
  | .rw, false, [f] => decide (f < 2 ^ 32)
  | .onehot, false, [f] => decide (f < 2 ^ 32)
  | .crcb, false, [b] => decide (b < 2)
  | .facc, false, [ax, ay, az] => decide (ax < 8) && decide (ay < 8) && decide (az < 8)
  | .fgyu, false, [rx, rx2] => decide (rx < 8) && decide (rx2 < 8)
  | .fgyd, false, [rz, rz2, ry, ry2] => decide (rz < 8) && decide (rz2 < 8) && decide (ry < 8) && decide (ry2 < 8)
  | .pack, true, [imm] => decide (imm < 2 ^ 32)
  | .crcb, true, [imm] => decide (imm < 2 ^ 32)
  | .facc, true, [imm] => decide (imm < 2 ^ 32)
  | .fgyu, true, [imm] => decide (imm < 2 ^ 32)
  | .fgyd, true, [imm] => decide (imm < 2 ^ 32)
  | .write, false, [_, _] => true
  | .read, false, [_] => true
  | .setnormal, false, [] => true
  | .seteoi, false, [] => true
  | .crcser, false, [t] => decide (t < 2 ^ 24)
  | _, _, _ => false

/-- `PACK rw, addr, data` (30_encoding.md R69). -/
def packCommand (rw addr data : Nat) : Command :=
  ⟨0x10#8, 0#10 ++ BitVec.ofNat 1 rw ++ BitVec.ofNat 5 addr ++ BitVec.ofNat 16 data⟩

/-- A command word with a 32-bit operand taken whole (30_encoding.md R69). -/
def wholeCommand (cmd : Byte) (v : Nat) : Command := ⟨cmd, BitVec.ofNat 32 v⟩

/-- `CRCB b` (30_encoding.md R69). -/
def crcbCommand (b : Bool) : Command := ⟨0x81#8, (BitVec.ofBool b).setWidth 32⟩

/-- `CRCB t[n - 1]` down to `CRCB t[0]`, the middle of `CRCSER t` (30_encoding.md R70). -/
def crcbCommands (t : BitVec 24) : Nat → List Command
  | 0 => []
  | n + 1 => crcbCommand (t.getLsbD n) :: crcbCommands t n

/-- `CRCSER t`: CRCI, 24 CRCB from the most significant bit down, CRCF; 26 commands (30_encoding.md R70). -/
def crcserCommands (t : BitVec 24) : List Command :=
  wholeCommand 0x80#8 0 :: (crcbCommands t 24 ++ [wholeCommand 0x82#8 0])

/-- The commands a well-formed line stands for (30_encoding.md R69, R70); FCFG selectors a form does not name are 0. -/
def SourceLine.commands (l : SourceLine) : List Command :=
  match l.mnemonic, l.immediate, l.operands with
  | .nop, false, [] => [wholeCommand 0x00#8 0]
  | .crci, false, [] => [wholeCommand 0x80#8 0]
  | .crcf, false, [] => [wholeCommand 0x82#8 0]
  | .crcr, false, [] => [wholeCommand 0x83#8 0]
  | .pack, false, [rw, addr, data] => [packCommand rw addr data]
  | .crc, false, [f] => [wholeCommand 0x20#8 f]
  | .verify, false, [f] => [wholeCommand 0x30#8 f]
  | .s16, false, [f] => [wholeCommand 0x40#8 f]
  | .u16, false, [f] => [wholeCommand 0x41#8 f]
  | .s8h, false, [f] => [wholeCommand 0x42#8 f]
  | .s8l, false, [f] => [wholeCommand 0x43#8 f]
  | .rsx, false, [f] => [wholeCommand 0x50#8 f]
  | .addr, false, [f] => [wholeCommand 0x60#8 f]
  | .rw, false, [f] => [wholeCommand 0x61#8 f]
  | .onehot, false, [f] => [wholeCommand 0x62#8 f]
  | .crcb, false, [b] => [crcbCommand (b == 1)]
  | .facc, false, [ax, ay, az] => [⟨0x70#8, 0#23 ++ BitVec.ofNat 3 az ++ BitVec.ofNat 3 ay ++ BitVec.ofNat 3 ax⟩]
  | .fgyu, false, [rx, rx2] => [⟨0x72#8, 0#17 ++ BitVec.ofNat 3 rx ++ BitVec.ofNat 3 rx2 ++ 0#9⟩]
  | .fgyd, false, [rz, rz2, ry, ry2] =>
    [⟨0x73#8, 0#11 ++ BitVec.ofNat 3 ry ++ BitVec.ofNat 3 ry2 ++ BitVec.ofNat 3 rz ++ BitVec.ofNat 3 rz2 ++ 0#9⟩]
  | .pack, true, [imm] => [wholeCommand 0x10#8 imm]
  | .crcb, true, [imm] => [wholeCommand 0x81#8 imm]
  | .facc, true, [imm] => [wholeCommand 0x70#8 imm]
  | .fgyu, true, [imm] => [wholeCommand 0x72#8 imm]
  | .fgyd, true, [imm] => [wholeCommand 0x73#8 imm]
  | .write, false, [addr, data] => [packCommand 1 addr data]
  | .read, false, [addr] => [packCommand 0 addr 0x0000]
  | .setnormal, false, [] => [packCommand 1 0x19 0x0000]
  | .seteoi, false, [] => [packCommand 1 0x18 0x0002]
  | .crcser, false, [t] => crcserCommands (BitVec.ofNat 24 t)
  | _, _, _ => []

/-- The pieces of a line's text. -/
inductive Token where
  | word (cs : List Char)
  | comma
  | hash
deriving DecidableEq, Repr

/-- End the word read so far (its letters are held in reverse). -/
def endWord (letters : List Char) (rest : List Token) : List Token :=
  if letters.isEmpty then rest else .word letters.reverse :: rest

/-- Cut a line into tokens; `;` starts a comment (30_encoding.md R69). -/
def lexFrom : List Char → List Char → List Token
  | [], letters => endWord letters []
  | c :: cs, letters =>
    if c = ';' then endWord letters []
    else if c = ' ' || c = '\t' || c = '\r' then endWord letters (lexFrom cs [])
    else if c = ',' then endWord letters (.comma :: lexFrom cs [])
    else if c = '#' then endWord letters (.hash :: lexFrom cs [])
    else lexFrom cs (c :: letters)

/-- The value of a digit in base 16; a decimal digit is one below 10. -/
def digitValue (c : Char) : Option Nat :=
  if '0' ≤ c && c ≤ '9' then some (c.toNat - '0'.toNat)
  else if 'A' ≤ c && c ≤ 'F' then some (c.toNat - 'A'.toNat + 10)
  else if 'a' ≤ c && c ≤ 'f' then some (c.toNat - 'a'.toNat + 10)
  else none

/-- Read digits of a base onto a value read so far. -/
def digitsFrom (base : Nat) : List Char → Nat → Option Nat
  | [], v => some v
  | c :: cs, v =>
    match digitValue c with
    | some d => if d < base then digitsFrom base cs (v * base + d) else none
    | none => none

/-- A number: decimal, or hexadecimal with `0x` (30_encoding.md R69). -/
def parseNumber : List Char → Option Nat
  | [] => none
  | ['0', 'x'] => none
  | '0' :: 'x' :: ds => digitsFrom 16 ds 0
  | ds => digitsFrom 10 ds 0

/-- Operands separated by commas. -/
def parseOperands : List Token → Option (List Nat)
  | [] => some []
  | [.word w] => (parseNumber w).map fun n => [n]
  | .word w :: .comma :: .word w' :: ts =>
    match parseNumber w, parseOperands (.word w' :: ts) with
    | some n, some ns => some (n :: ns)
    | _, _ => none
  | _ => none

/-- A line's text, read: nothing but space or a comment, a source line, or no line of 30_encoding.md R69. -/
inductive ParsedLine where
  | blank
  | line (l : SourceLine)
  | malformed
deriving DecidableEq, Repr

/-- Read one line of source text (30_encoding.md R69). -/
def parseLine (text : List Char) : ParsedLine :=
  match lexFrom text [] with
  | [] => .blank
  | .word m :: ts =>
    match mnemonicTable.lookup m with
    | none => .malformed
    | some mn =>
      match ts with
      | [.hash, .word w] =>
        match parseNumber w with
        | some n => if (SourceLine.mk mn true [n]).wellFormed then .line ⟨mn, true, [n]⟩ else .malformed
        | none => .malformed
      | _ =>
        match parseOperands ts with
        | some ns => if (SourceLine.mk mn false ns).wellFormed then .line ⟨mn, false, ns⟩ else .malformed
        | none => .malformed
  | _ => .malformed

/-- Cut a text into lines; the line read so far is held in reverse. -/
def linesFrom : List Char → List Char → List (List Char)
  | [], line => [line.reverse]
  | c :: cs, line => if c = '\n' then line.reverse :: linesFrom cs [] else linesFrom cs (c :: line)

/-- The commands of a program's lines, one command or pseudo-instruction a line; none if a line is malformed. -/
def assembleLines : List (List Char) → Option (List Command)
  | [] => some []
  | text :: rest =>
    match parseLine text, assembleLines rest with
    | .blank, some cs => some cs
    | .line l, some cs => some (l.commands ++ cs)
    | _, _ => none

/-- The commands of a program's text (30_encoding.md R69, R70). -/
def assemble (text : List Char) : Option (List Command) := assembleLines (linesFrom text [])

/-- A hexadecimal digit. -/
def hexDigit (n : Nat) : Char :=
  if n % 16 < 10 then Char.ofNat ('0'.toNat + n % 16) else Char.ofNat ('A'.toNat + (n % 16 - 10))

/-- The low `digits` hexadecimal digits of a number, most significant first. -/
def hexDigits (n : Nat) : Nat → List Char
  | 0 => []
  | k + 1 => hexDigit (n / 16 ^ k) :: hexDigits n k

/-- An encoding written `cmd : A`, for example `0x10 : 0x00390000` (30_encoding.md R69). -/
def renderEncoding (c : Command) : List Char :=
  ['0', 'x'] ++ hexDigits c.cmd.toNat 2 ++ [' ', ':', ' ', '0', 'x'] ++ hexDigits c.a.toNat 8

end Sys2Proof.Machine
end

