-- ==== Sys2Proof/Machine/Link.lean ====
section
/-! DEFINITION. The ENVIRONMENT of the block, not the block: the link partner's one-slot response buffer (10_state.md R31, R32,
70_reset_and_hazards.md R175), and the host's duties towards it (R176 to R178, R181). Nothing here is read or written by `step`; the codec
"does not model or track it" (R31). The Transport Adapter and the sequencer themselves are out of scope (00_scope.md R5). -/

namespace Sys2Proof.Machine

/-- What the host sees of the two chips: one response slot each. The other two fields are the MODEL's own, not the spec's (log 10):
they index the free values, so that an answer may depend on all that came before and on all else that differs from run to run. -/
structure LinkPartner where
  slotUno : Word
  slotDue : Word
  /-- Which run of the link this is: it stands for whatever no exchange shows (motion, time, resets, the parts themselves). -/
  run : Nat
  /-- The exchanges made so far in this run, newest first, with either chip. -/
  history : List (ChipRole × Word)
deriving DecidableEq, Repr

/-- Before any exchange of a run a slot answers nothing the host sent: any value (93_implementation_defined.md I10). -/
def LinkPartner.initial (run : Nat) : LinkPartner := ⟨Config.linkFirst run .uno, Config.linkFirst run .due, run, []⟩

/-- A chip's response slot; each chip has its own (10_state.md R32). -/
def LinkPartner.slot (l : LinkPartner) : ChipRole → Word
  | .uno => l.slotUno
  | .due => l.slotDue

/-- The chip's answer to a request at the next exchange: any value (93_implementation_defined.md I8, I9). DESIGN CHOICE (log 10): the
spec leaves open what an answer depends on; the model makes it a free function of the run, the exchanges before (writes to
either chip among them), the chip and the request. So equal answers follow only for the same run after the same exchanges. -/
def LinkPartner.answer (l : LinkPartner) (role : ChipRole) (request : Word) : Word :=
  Config.linkAnswer l.run l.history role request

/-- One whole exchange with one chip (20_memory.md R49, R53): the frame received is the slot's, the answer to the PREVIOUS request;
the answer to this request takes its place (70_reset_and_hazards.md R175). The other chip is untouched (10_state.md R32). -/
def exchange (role : ChipRole) (request : Word) (l : LinkPartner) : Word × LinkPartner :=
  (l.slot role,
    match role with
    | .uno => { l with slotUno := l.answer role request, history := (role, request) :: l.history }
    | .due => { l with slotDue := l.answer role request, history := (role, request) :: l.history })

/-- A sequence of exchanges with one chip: the frames received, in order. -/
def exchangeAll (role : ChipRole) : List Word → LinkPartner → List Word × LinkPartner
  | [], l => ([], l)
  | request :: requests, l =>
    ((exchange role request l).1 :: (exchangeAll role requests (exchange role request l).2).1,
      (exchangeAll role requests (exchange role request l).2).2)

/-- The answers the chip gives along a sequence, one for each request (whether or not an exchange collects it). -/
def answersAlong (role : ChipRole) : List Word → LinkPartner → List Word
  | [], _ => []
  | request :: requests, l => l.answer role request :: answersAlong role requests (exchange role request l).2

/-- The host's pairing duty: request n goes with the frame received in exchange n + 1 (70_reset_and_hazards.md R175). -/
def pairResponses (requests received : List Word) : List (Word × Word) := requests.zip (received.drop 1)

/-- A read sequence over-fetches by one exchange, whose request is not itself answered in the sequence (70_reset_and_hazards.md R175,
95_test_vectors.md P3; log 11). -/
def overFetched (addresses : List (BitVec 5)) (extra : Word) : List Word :=
  addresses.map (fun a => buildFrame false a 0x0000#16) ++ [extra]

/-- Of two status reads in a row after a mode change, the one a host may use (70_reset_and_hazards.md R176). -/
def statusAfterModeChange (_first second : Word) : Word := second

/-- The points after which the source's sequencer waits (70_reset_and_hazards.md R177). -/
inductive SettlePoint where
  | hardwareReset
  | testModeExit
  | setNormalMode
  | filterConfiguration (rate : FilterRate)
  | failedConvergence
  | betweenStatusReads
deriving DecidableEq, Repr

/-- The shortest wait at each point, in milliseconds (70_reset_and_hazards.md R177); the block enforces none (60_exceptions.md R157). -/
def minimumWaitMs : SettlePoint → Nat
  | .hardwareReset => 25
  | .testModeExit => 25
  | .setNormalMode => 70
  | .filterConfiguration .hz13 => 405
  | .filterConfiguration .hz20 => 405
  | .filterConfiguration .hz46 => 525
  | .filterConfiguration .hz200 => 525
  | .filterConfiguration .hz300 => 525
  | .failedConvergence => 500
  | .betweenStatusReads => 3

/-- How often "set normal mode" is written to a chip: twice to the one that needs double latching, which the source does not name
(70_reset_and_hazards.md R178, 93_implementation_defined.md I16), once to the other. -/
def setNormalWrites (doubleLatched role : ChipRole) : Nat := if role = doubleLatched then 2 else 1

/-- A chip is healthy when its status code is OK (42_decode.md R118). -/
def healthyStatus (f : Word) : Bool := !notOk (frameRs f)

/-- How the convergence loop ends. -/
inductive Convergence where
  /-- Both chips were healthy in this attempt, counted from 1. -/
  | ready (attempt : Nat)
  /-- No attempt succeeded: the residual-status failure. -/
  | residualStatusFailure
  /-- Attempts are left and the host has not made them. -/
  | unfinished
deriving DecidableEq, Repr

/-- The attempts still to come, `left` of them, of which `made` were made before. -/
def convergeFrom (left made : Nat) : List (Word × Word) → Convergence
  | [] => if left = 0 then .residualStatusFailure else .unfinished
  | (uno, due) :: attempts =>
    match left with
    | 0 => .residualStatusFailure
    | n + 1 =>
      if healthyStatus uno && healthyStatus due then .ready (made + 1) else convergeFrom n (made + 1) attempts

/-- The convergence loop makes at most 5 attempts, each judging both chips' status frames (70_reset_and_hazards.md R181). -/
def converge (attempts : List (Word × Word)) : Convergence := convergeFrom 5 0 attempts

end Sys2Proof.Machine
end

