-- ==== Sys2Proof/Safety.lean ====
section
/-! DEFINITION. The terms claims are stated in: which commands read a frame or write which element (10_state.md R20), what a clean run
and a clean host are (92_eei_decisions.md D8: "a claim must assume ERR = 0"), and what a host may trust (41_verify.md R104). -/

namespace Sys2Proof.Machine

/-- The frame-reading commands: FRAME form (30_encoding.md R62), those that write `CRCOK` (10_state.md R20). -/
def readsFrame : Instr → Bool
  | .nop => false
  | .pack _ _ _ => false
  | .crc _ => false
  | .verify _ => true
  | .s16 _ => true
  | .u16 _ => true
  | .s8h _ => true
  | .s8l _ => true
  | .rsx _ => true
  | .addr _ => true
  | .rw _ => true
  | .onehot _ => true
  | .facc _ _ _ => false
  | .fgyu _ _ => false
  | .fgyd _ _ _ _ => false
  | .crci => false
  | .crcb _ => false
  | .crcf => false
  | .crcr => false

/-- Every defined command except NOP, CRCI and CRCB writes `RES` (10_state.md R20). -/
def writesRes : Instr → Bool
  | .nop => false
  | .pack _ _ _ => true
  | .crc _ => true
  | .verify _ => true
  | .s16 _ => true
  | .u16 _ => true
  | .s8h _ => true
  | .s8l _ => true
  | .rsx _ => true
  | .addr _ => true
  | .rw _ => true
  | .onehot _ => true
  | .facc _ _ _ => true
  | .fgyu _ _ => true
  | .fgyd _ _ _ _ => true
  | .crci => false
  | .crcb _ => false
  | .crcf => true
  | .crcr => true

/-- CRCI and CRCB write `ACC` (10_state.md R20). -/
def writesAcc : Instr → Bool
  | .nop => false
  | .pack _ _ _ => false
  | .crc _ => false
  | .verify _ => false
  | .s16 _ => false
  | .u16 _ => false
  | .s8h _ => false
  | .s8l _ => false
  | .rsx _ => false
  | .addr _ => false
  | .rw _ => false
  | .onehot _ => false
  | .facc _ _ _ => false
  | .fgyu _ _ => false
  | .fgyd _ _ _ _ => false
  | .crci => true
  | .crcb _ => true
  | .crcf => false
  | .crcr => false

/-- No edge to come shows `rst` = 1. -/
def State.noResetAhead (s : State) : Bool := s.inputs.all fun p => !p.rst

/-- Every command to come is a defined word (one presented together with reset is dropped and does not count). -/
def State.definedAhead (s : State) : Bool := s.inputs.all fun p => p.rst || !p.cmdValid || !reservedWord p.cmd

/-- `ERR` is set and will not be reset. -/
def State.errLatched (s : State) : Bool := s.err && s.noResetAhead

/-- `ERR` is clear and the host presents no reserved word: the runs claims are about (92_eei_decisions.md D8). -/
def State.clean (s : State) : Bool := !s.err && s.definedAhead

/-- The value `RES` holds was decoded from a frame whose CRC matched, as far as the flag says (41_verify.md R104). -/
def State.trusted (s : State) : Bool := s.crcok

/-- The state a command that completes leaves; the state itself where it would not complete. -/
def State.after (s : State) (i : Instr) : State :=
  match exec i s with
  | .next t => t
  | .fault _ => s
  | .refused _ => s

/-- The state after a sequence of commands, each run whole before the next (20_memory.md R51). -/
def State.afterAll (s : State) : List Instr → State
  | [] => s
  | i :: is => (s.after i).afterAll is

/-- `k` rising edges, stopping where a step does not answer next; `Host.Core.run` of the machine (Laws/Run.lean). -/
def runSteps : Nat → State → Host.Outcome State Fault Refusal
  | 0, s => .next s
  | k + 1, s =>
    match step s with
    | .next t => runSteps k t
    | .fault r => .fault r
    | .refused r => .refused r

/-- Two filter frames that differ as the change of one code at payload offset `o` makes them differ: alike in every bit from 8 up
outside the field, and not alike in the CRC byte (43_filter_frames.md R137). -/
def changesOnlyField (o : Fin 14) (f f' : Word) : Prop :=
  (∀ j, 8 ≤ j → (j < 8 + o.val ∨ 8 + o.val + 3 ≤ j) → f.getLsbD j = f'.getLsbD j) ∧ frameCrc f ≠ frameCrc f'

end Sys2Proof.Machine
end

