-- ==== Sys2Proof/Certificates/Slice0/Obligations.lean ====
section
/-! DEFINITION. The statements for the provers. Each docstring says what the statement formalises; the rules are those of spec/.
No statement rests on the parameter set of `State.reset` (log 2) or on its empty list of inputs (log 1).
That the coming port samples are a list in State, of which each edge drops the first, is in every statement the model's way
to present commands to the block (log 1), not a rule of the spec. -/

open Sys2Proof Sys2Proof.Machine

/-- In State.reset, RES is 0x00000000, ACC is 0xFF, CRCOK and ERR are 0; the CRC of an all-zero span is 0xF1, so the word
0x00000000 is no frame that passes the check. (R30.) -/
def Obligations.ResetStateHoldsTheSpecValues : Prop :=
  State.reset.res = 0x00000000#32 ∧ State.reset.acc = 0xFF#8 ∧ State.reset.crcok = false ∧ State.reset.err = false ∧
  crc24 0x000000#24 = 0xF1#8 ∧ ∀ s : State, ∃ t, exec (.verify 0x00000000#32) s = .next t ∧ t.crcok = false

/-- For every state with a legal parameter set whose next sample has rst = 1, whatever cmd_valid, cmd and a hold, the step
answers next with RES 0, ACC 0xFF, CRCOK 0, ERR 0, the parameters unchanged and only that sample consumed. (R170.) -/
def Obligations.ResetEdgeTakesEveryElementToItsResetValue : Prop :=
  ∀ (s : State) (cmdValid : Bool) (cmd : Byte) (a : Word) (ps : List PortSample),
    s.params.wellFormed = true → s.inputs = ⟨true, cmdValid, cmd, a⟩ :: ps →
    step s = .next ⟨0x00000000#32, 0xFF#8, false, false, s.params, ps⟩

/-- For every state with a legal parameter set whose next sample has rst = 0 and cmd_valid = 0, whatever cmd and a hold, the
step answers next with nothing changed but that sample consumed. (R61, R170.) -/
def Obligations.EdgeWithoutCommandChangesNothing : Prop :=
  ∀ (s : State) (cmd : Byte) (a : Word) (ps : List PortSample),
    s.params.wellFormed = true → s.inputs = ⟨false, false, cmd, a⟩ :: ps →
    step s = .next { s with inputs := ps }

/-- The model's own choice, log 1: in a state with a legal parameter set and no input sample left, the step answers next with
the same state, as an edge with cmd_valid = 0 does. (10_state.md section 2 (ports).) -/
def Obligations.EdgeWithNothingLinedUpIsIdle : Prop :=
  ∀ s : State, s.params.wellFormed = true → s.inputs = [] → step s = .next s

/-- For every state with a legal parameter set whose next sample has rst = 0 and cmd_valid = 1, when cmd and a decode to a
command i, step is exec of i on the state with that sample consumed; there is no program counter to move. (R61, R67, R173.)
-/
def Obligations.StepRunsTheDecodedCommand : Prop :=
  ∀ (s : State) (cmd : Byte) (a : Word) (ps : List PortSample) (i : Instr),
    s.params.wellFormed = true → s.inputs = ⟨false, true, cmd, a⟩ :: ps → decode cmd a = .command i →
    step s = exec i { s with inputs := ps }

/-- Accepting a reserved word, with any operand, answers next with ERR = 1 and RES, ACC, CRCOK and the parameters unchanged.
Every command that completes does the same to the other elements whether ERR was 0 or 1, and leaves a set ERR set. (R150.) -/
def Obligations.ReservedWordSetsErrAndNothingElse : Prop :=
  (∀ (s : State) (cmd : Byte) (a : Word) (ps : List PortSample),
    s.params.wellFormed = true → s.inputs = ⟨false, true, cmd, a⟩ :: ps → reservedWord cmd = true →
    step s = .next { s with err := true, inputs := ps }) ∧
  (∀ (i : Instr) (s : State), ∃ t, exec i s = .next t ∧ exec i { s with err := true } = .next { t with err := true })

/-- For every command word and operand, the decoder answers reserved exactly when the word lies in one of the eleven ranges
of R66; there are 237 such words; accepting one answers next with only ERR set. (R66.) -/
def Obligations.ReservedWordsAreExactlyTheListedRanges : Prop :=
  (∀ (cmd : Byte) (a : Word),
    decode cmd a = .reservedCommand cmd ↔
      (0x01 ≤ cmd.toNat ∧ cmd.toNat ≤ 0x0F) ∨ (0x11 ≤ cmd.toNat ∧ cmd.toNat ≤ 0x1F) ∨
      (0x21 ≤ cmd.toNat ∧ cmd.toNat ≤ 0x2F) ∨ (0x31 ≤ cmd.toNat ∧ cmd.toNat ≤ 0x3F) ∨
      (0x44 ≤ cmd.toNat ∧ cmd.toNat ≤ 0x4F) ∨ (0x51 ≤ cmd.toNat ∧ cmd.toNat ≤ 0x5F) ∨
      (0x63 ≤ cmd.toNat ∧ cmd.toNat ≤ 0x6F) ∨ cmd.toNat = 0x71 ∨ (0x74 ≤ cmd.toNat ∧ cmd.toNat ≤ 0x7F) ∨
      (0x84 ≤ cmd.toNat ∧ cmd.toNat ≤ 0x8F) ∨ (0x90 ≤ cmd.toNat ∧ cmd.toNat ≤ 0xFF)) ∧
  ((List.range 256).filter fun n => decode (BitVec.ofNat 8 n) 0#32 == .reservedCommand (BitVec.ofNat 8 n)).length = 237 ∧
  (∀ (cmd : Byte) (a : Word) (s : State), decode cmd a = .reservedCommand cmd →
    acceptCommand cmd a s = .next { s with err := true })

/-- For every operand A, each of the nineteen command words of R65 decodes to its command, reading exactly the bits of A that
its form names in R62 and R63; every other command word is reserved. (R62, R63, R65.) -/
def Obligations.CommandMapDecodesByTable : Prop :=
  (∀ a : Word,
    decode 0x00#8 a = .command .nop ∧
    decode 0x10#8 a = .command (.pack (a.getLsbD 21) (a.extractLsb 20 16) (a.extractLsb 15 0)) ∧
    decode 0x20#8 a = .command (.crc (a.extractLsb 31 8)) ∧
    decode 0x30#8 a = .command (.verify a) ∧
    decode 0x40#8 a = .command (.s16 a) ∧
    decode 0x41#8 a = .command (.u16 a) ∧
    decode 0x42#8 a = .command (.s8h a) ∧
    decode 0x43#8 a = .command (.s8l a) ∧
    decode 0x50#8 a = .command (.rsx a) ∧
    decode 0x60#8 a = .command (.addr a) ∧
    decode 0x61#8 a = .command (.rw a) ∧
    decode 0x62#8 a = .command (.onehot a) ∧
    decode 0x70#8 a = .command (.facc (a.extractLsb 2 0) (a.extractLsb 5 3) (a.extractLsb 8 6)) ∧
    decode 0x72#8 a = .command (.fgyu (a.extractLsb 14 12) (a.extractLsb 11 9)) ∧
    decode 0x73#8 a =
      .command (.fgyd (a.extractLsb 14 12) (a.extractLsb 11 9) (a.extractLsb 20 18) (a.extractLsb 17 15)) ∧
    decode 0x80#8 a = .command .crci ∧
    decode 0x81#8 a = .command (.crcb (a.getLsbD 0)) ∧
    decode 0x82#8 a = .command .crcf ∧
    decode 0x83#8 a = .command .crcr) ∧
  (∀ (cmd : Byte) (a : Word),
    cmd ∉ [0x00#8, 0x10#8, 0x20#8, 0x30#8, 0x40#8, 0x41#8, 0x42#8, 0x43#8, 0x50#8, 0x60#8, 0x61#8, 0x62#8, 0x70#8,
      0x72#8, 0x73#8, 0x80#8, 0x81#8, 0x82#8, 0x83#8] →
    decode cmd a = .reservedCommand cmd)

/-- Two operands that agree on the bits the command word reads decode alike, for every command word, and accepting the word
with either does the same in every state. (R62, R63, 30_encoding.md section 2.) -/
def Obligations.DecodeIgnoresBitsOutsideTheForm : Prop :=
  ∀ (cmd : Byte) (a a' : Word), a &&& operandMask cmd = a' &&& operandMask cmd →
    decode cmd a = decode cmd a' ∧ ∀ s : State, acceptCommand cmd a s = acceptCommand cmd a' s

/-- Whatever decodes, decodes to a command whose table word is the word presented; and if a word decodes to a command with
one operand, it does so with every operand. (R67.) -/
def Obligations.CommandIsSelectedByCmdAlone : Prop :=
  (∀ (cmd : Byte) (a : Word) (i : Instr), decode cmd a = .command i → i.cmdWord = cmd) ∧
  (∀ (cmd : Byte) (a a' : Word) (i : Instr), decode cmd a = .command i →
    ∃ i', decode cmd a' = .command i' ∧ i'.cmdWord = i.cmdWord)

/-- For every command, with every operand at every value its form admits, decoding the command word and the operand word the
encoder writes gives that command. (R62, R63, R65, R69.) -/
def Obligations.DecodeOfEncodeIsTheCommand : Prop :=
  ∀ i : Instr, decode (encode i).cmd (encode i).a = .command i

/-- If cmd and a decode to a command, then encoding it gives cmd and the operand with every bit outside the form cleared.
That the cleared bits are written as 0 is the model's choice for the forms R69 does not spell out (log 7). (R62, R63, R65.)
-/
def Obligations.EncodeOfDecodeKeepsTheReadBits : Prop :=
  ∀ (cmd : Byte) (a : Word) (i : Instr), decode cmd a = .command i → encode i = ⟨cmd, a &&& operandMask cmd⟩

/-- SETNORMAL, FACC 1, 2, 3, FGYU 1, 2, FGYD 1, 2, 3, 4, CRCB 1 and VERIFY of the set-normal-mode frame, written out as
words, decode to those commands; 0x71 is reserved. (R65, R69, R70, 95_test_vectors.md sections 2 to 4.) -/
def Obligations.WordsWrittenFromTheTableDecode : Prop :=
  decode 0x10#8 0x00390000#32 = .command (.pack true 0x19#5 0x0000#16) ∧
  decode 0x70#8 0x000000D1#32 = .command (.facc 1#3 2#3 3#3) ∧
  decode 0x72#8 0x00001400#32 = .command (.fgyu 1#3 2#3) ∧
  decode 0x73#8 0x000E1400#32 = .command (.fgyd 1#3 2#3 3#3 4#3) ∧
  decode 0x81#8 0x00000001#32 = .command (.crcb true) ∧
  decode 0x30#8 0xE4000067#32 = .command (.verify 0xE4000067#32) ∧
  decode 0x71#8 0x000000D1#32 = .reservedCommand 0x71#8

/-- crc8_step(b, s) is {s[6:0], 0}, XORed with 0x1D when s[7] ^ b is 1; it is linear in the pair (b, s) over GF(2); and its
six corner values are those R80 lists. (R80.) -/
def Obligations.CrcStepFollowsItsPseudocodeAndIsLinear : Prop :=
  (∀ (b : Bool) (s : Byte),
    crc8Step b s =
      if (s.getLsbD 7 ^^ b) = true then (s.extractLsb 6 0 ++ 0#1) ^^^ 0x1D#8 else s.extractLsb 6 0 ++ 0#1) ∧
  (∀ (b c : Bool) (s t : Byte), crc8Step (b ^^ c) (s ^^^ t) = crc8Step b s ^^^ crc8Step c t) ∧
  crc8Step false 0x00#8 = 0x00#8 ∧ crc8Step true 0x00#8 = 0x1D#8 ∧ crc8Step false 0x80#8 = 0x1D#8 ∧
  crc8Step true 0x80#8 = 0x00#8 ∧ crc8Step false 0xFF#8 = 0xE3#8 ∧ crc8Step true 0xFF#8 = 0xFE#8

/-- crc24(t) is the complement of the state reached from 0xFF by folding t[23], t[22], ..., t[0] with crc8_step;
crc24(0xE40000) is 0x67 and crc24(0xE00002) is 0x5B. (R81.) -/
def Obligations.CrcOfASpanIsTheSeededFoldComplemented : Prop :=
  (∀ t : BitVec 24,
    crc24 t = ~~~ ([23, 22, 21, 20, 19, 18, 17, 16, 15, 14, 13, 12, 11, 10, 9, 8, 7, 6, 5, 4, 3, 2, 1, 0].foldl
      (fun s i => crc8Step (t.getLsbD i) s) 0xFF#8)) ∧
  crc24 0xE40000#24 = 0x67#8 ∧ crc24 0xE00002#24 = 0x5B#8

/-- For every span t and k below 24, crc24 of t with bit k flipped is crc24(t) XOR delta_k, with delta_k the k-th of the 24
values R91 lists; none is 0; so flipping any one of the top 24 bits of a frame that passes the check makes it fail. (R91.) -/
def Obligations.SingleBitFlipChangesCrcByAFixedDelta : Prop :=
  let δ : List Byte := [0x1D#8, 0x3A#8, 0x74#8, 0xE8#8, 0xCD#8, 0x87#8, 0x13#8, 0x26#8, 0x4C#8, 0x98#8, 0x2D#8, 0x5A#8,
    0xB4#8, 0x75#8, 0xEA#8, 0xC9#8, 0x8F#8, 0x03#8, 0x06#8, 0x0C#8, 0x18#8, 0x30#8, 0x60#8, 0xC0#8]
  (∀ (t : BitVec 24) (k : Nat), k < 24 → crc24 (t ^^^ (1#24 <<< k)) = crc24 t ^^^ δ.getD k 0#8) ∧
  (∀ d ∈ δ, d ≠ 0x00#8) ∧
  (∀ (f : Word) (k : Nat), 8 ≤ k → k < 32 → crcMatches f = true → crcMatches (f ^^^ (1#32 <<< k)) = false)

/-- Folding the eight bits of a byte v, most significant first, into s gives T[s ^ v], with T[x] the state after eight 0
bits; and crc24(t) = ~T[T[T[0xFF ^ t[23:16]] ^ t[15:8]] ^ t[7:0]] for every span. (R80, R81, 95_test_vectors.md section 2.1.)
-/
def Obligations.BytewiseCrcEqualsBitwise : Prop :=
  (∀ v s : Byte,
    [7, 6, 5, 4, 3, 2, 1, 0].foldl (fun x i => crc8Step (v.getLsbD i) x) s =
      [7, 6, 5, 4, 3, 2, 1, 0].foldl (fun x _ => crc8Step false x) (s ^^^ v)) ∧
  (∀ t : BitVec 24, crc24 t = crc24Bytewise t)

/-- From every state with a legal parameter set whose next 26 samples are the expansion of CRCSER t, 26 steps answer next
with RES = zext_32(crc24(t)), ACC its complement and nothing else changed; CRC of any operand with A[31:8] = t gives the same
RES. (R70, R81, R84, R85, R86, R88.) -/
def Obligations.SerialEngineComputesTheParallelCrc : Prop :=
  (∀ (s : State) (t : BitVec 24) (ps : List PortSample), s.params.wellFormed = true →
    s.inputs = (crcserCommands t).map PortSample.ofCommand ++ ps →
    runSteps 26 s = .next { s with res := (crc24 t).zeroExtend 32, acc := ~~~ crc24 t, inputs := ps }) ∧
  (∀ (s : State) (a : Word), acceptCommand 0x20#8 a s = .next { s with res := (crc24 (a.extractLsb 31 8)).zeroExtend 32 })

/-- For every order of the 24 bit positions other than most significant first, some span's seeded and complemented fold in
that order differs from its CRC. (R88.) -/
def Obligations.OtherBitOrdersComputeAnotherFunction : Prop :=
  ∀ order : List Nat, order.Perm (List.range 24) → order ≠ (List.range 24).reverse →
    ∃ t : BitVec 24, ~~~ (order.foldl (fun s i => crc8Step (t.getLsbD i) s) 0xFF#8) ≠ crc24 t

/-- NOP answers next with the same state, in every state; its word 0x00 decodes to it with every operand, and accepting it
with operand 0xFFFFFFFF changes nothing; 0x01 to 0x0F are reserved; an edge with cmd_valid = 0 has the same effect. (R151.)
-/
def Obligations.NopChangesNothing : Prop :=
  (∀ s : State, exec .nop s = .next s) ∧
  (∀ a : Word, decode 0x00#8 a = .command .nop) ∧
  (∀ (s : State) (a : Word), acceptCommand 0x00#8 a s = .next s) ∧
  (∀ (cmd : Byte) (a : Word), 0x01 ≤ cmd.toNat → cmd.toNat ≤ 0x0F → decode cmd a = .reservedCommand cmd) ∧
  (∀ (s : State) (cmd : Byte) (a a' : Word), clockEdge ⟨false, false, cmd, a⟩ s = clockEdge ⟨false, true, 0x00#8, a'⟩ s)

/-- PACK answers next with RES the frame of the write bit, the address, status bits 00, the payload and its CRC, and nothing
else changed, in every state and for every operand; its word reads A[21], A[20:16], A[15:0]; an all-zero operand gives
0x000000F1 and 0x00390000 gives 0xE4000067, as does 0xFFF90000. (R82.) -/
def Obligations.PackBuildsTheFrame : Prop :=
  (∀ (s : State) (w : Bool) (r : BitVec 5) (d : BitVec 16),
    exec (.pack w r d) s =
      .next { s with res :=
        (BitVec.ofBool w ++ r ++ 0b00#2 ++ d : BitVec 24) ++ crc24 (BitVec.ofBool w ++ r ++ 0b00#2 ++ d : BitVec 24) }) ∧
  (∀ a : Word, decode 0x10#8 a = .command (.pack (a.getLsbD 21) (a.extractLsb 20 16) (a.extractLsb 15 0))) ∧
  (∀ s : State, acceptCommand 0x10#8 0x00000000#32 s = .next { s with res := 0x000000F1#32 } ∧
    acceptCommand 0x10#8 0x00390000#32 s = .next { s with res := 0xE4000067#32 } ∧
    acceptCommand 0x10#8 0xFFF90000#32 s = .next { s with res := 0xE4000067#32 })

/-- CRC answers next with RES the zero-extended CRC of the span and nothing else changed, in every state; its word reads
A[31:8] only, status bits included; 0 gives 0xF1, 0xFFFFFFxx gives 0x7A, 0xE00002AA gives 0x5B. (R83.) -/
def Obligations.CrcCommandWritesTheSpansCrc : Prop :=
  (∀ (s : State) (t : BitVec 24), exec (.crc t) s = .next { s with res := (crc24 t).zeroExtend 32 }) ∧
  (∀ a : Word, decode 0x20#8 a = .command (.crc (a.extractLsb 31 8))) ∧
  (∀ s : State, acceptCommand 0x20#8 0x00000000#32 s = .next { s with res := 0x000000F1#32 } ∧
    (∀ x : Byte, acceptCommand 0x20#8 (0xFFFFFF#24 ++ x) s = .next { s with res := 0x0000007A#32 }) ∧
    acceptCommand 0x20#8 0xE00002AA#32 s = .next { s with res := 0x0000005B#32 })

/-- CRCI answers next with ACC = 0xFF and nothing else changed, in every state; doing it twice is doing it once; right after
reset it changes nothing; its word decodes to it with every operand. (R84.) -/
def Obligations.CrciLoadsTheSeed : Prop :=
  (∀ s : State, exec .crci s = .next { s with acc := 0xFF#8 }) ∧
  (∀ s : State, exec .crci { s with acc := 0xFF#8 } = .next { s with acc := 0xFF#8 }) ∧
  exec .crci State.reset = .next State.reset ∧
  (∀ a : Word, decode 0x80#8 a = .command .crci)

/-- CRCB answers next with ACC the CRC step of the bit and the old ACC and nothing else changed, in every state; its word
reads A[0] only, so 0x00000002 folds a 0; ACC 0x00 with bit 0 stays 0x00, ACC 0x80 with bit 1 gives 0x00, ACC 0xFF with bit 1
gives 0xFE. (R85.) -/
def Obligations.CrcbFoldsOneBitIntoAcc : Prop :=
  (∀ (s : State) (b : Bool), exec (.crcb b) s = .next { s with acc := crc8Step b s.acc }) ∧
  (∀ a : Word, decode 0x81#8 a = .command (.crcb (a.getLsbD 0))) ∧
  (∀ s : State, acceptCommand 0x81#8 0x00000002#32 s = exec (.crcb false) s ∧
    exec (.crcb false) { s with acc := 0x00#8 } = .next { s with acc := 0x00#8 } ∧
    exec (.crcb true) { s with acc := 0x80#8 } = .next { s with acc := 0x00#8 } ∧
    exec (.crcb true) { s with acc := 0xFF#8 } = .next { s with acc := 0xFE#8 })

/-- CRCF answers next with RES the zero-extended complement of ACC and nothing else changed, in every state, so doing it
twice gives the same RES and a CRCB after it folds into the same ACC; with ACC 0xA4 it gives 0x5B; its word decodes to it
with every operand. (R86.) -/
def Obligations.CrcfReadsTheComplementOfAcc : Prop :=
  (∀ s : State, exec .crcf s = .next { s with res := (~~~ s.acc).zeroExtend 32 }) ∧
  (∀ s t : State, exec .crcf s = .next t →
    exec .crcf t = .next t ∧ ∀ b, exec (.crcb b) t = .next { t with acc := crc8Step b s.acc }) ∧
  (∀ s : State, exec .crcf { s with acc := 0xA4#8 } = .next { s with acc := 0xA4#8, res := 0x0000005B#32 }) ∧
  (∀ a : Word, decode 0x82#8 a = .command .crcf)

/-- CRCR answers next with RES the zero-extended ACC and nothing else changed, in every state; right after reset it gives
0x000000FF; with ACC 0xA4 it gives 0x000000A4; its word decodes to it with every operand. (R87.) -/
def Obligations.CrcrReadsAcc : Prop :=
  (∀ s : State, exec .crcr s = .next { s with res := s.acc.zeroExtend 32 }) ∧
  exec .crcr State.reset = .next { State.reset with res := 0x000000FF#32 } ∧
  (∀ s : State, exec .crcr { s with acc := 0xA4#8 } = .next { s with acc := 0xA4#8, res := 0x000000A4#32 }) ∧
  (∀ a : Word, decode 0x83#8 a = .command .crcr)

/-- VERIFY answers next with RES holding the embedded CRC, the recomputed CRC and ok, and CRCOK = ok, and nothing else
changed, in every state and for every word; 0x00000000 fails with recomputed 0xF1, 0x000000F1 passes, 0xE4000067 and the
ER-status frame 0x2F80008E pass, 0xE4000066 fails. (R100.) -/
def Obligations.VerifyReportsTheCheck : Prop :=
  (∀ (s : State) (f : Word),
    exec (.verify f) s =
      .next { s with
        res := 0x00#8 ++ f.extractLsb 7 0 ++ crc24 (f.extractLsb 31 8) ++ 0b0000000#7 ++
          BitVec.ofBool (f.extractLsb 7 0 == crc24 (f.extractLsb 31 8))
        crcok := f.extractLsb 7 0 == crc24 (f.extractLsb 31 8) }) ∧
  (∀ a : Word, decode 0x30#8 a = .command (.verify a)) ∧
  (∀ s : State, exec (.verify 0x00000000#32) s = .next { s with res := 0x0000F100#32, crcok := false } ∧
    exec (.verify 0x000000F1#32) s = .next { s with res := 0x00F1F101#32, crcok := true } ∧
    exec (.verify 0x2F80008E#32) s = .next { s with res := 0x008E8E01#32, crcok := true } ∧
    exec (.verify 0xE4000067#32) s = .next { s with res := 0x00676701#32, crcok := true } ∧
    exec (.verify 0xE4000066#32) s = .next { s with res := 0x00666700#32, crcok := false })

/-- For every write bit, address and payload, in every state: PACK leaves a frame that VERIFY accepts, and after flipping any
one of its 32 bits VERIFY answers CRCOK = 0 and RES[0] = 0. (R101.) -/
def Obligations.PackedFramesVerifyAndNoFlippedOneDoes : Prop :=
  ∀ (s u : State) (w : Bool) (r : BitVec 5) (d : BitVec 16), ∃ t, exec (.pack w r d) s = .next t ∧
    (∃ v, exec (.verify t.res) u = .next v ∧ v.crcok = true ∧ v.res.getLsbD 0 = true) ∧
    ∀ k, k < 32 → ∃ v, exec (.verify (t.res ^^^ (1#32 <<< k))) u = .next v ∧ v.crcok = false ∧ v.res.getLsbD 0 = false

/-- S16 answers next with RES = sext(A[23:8]), CRCOK the frame's check and nothing else changed, in every state and for every
word, whether or not the check passes; its word decodes to it with the whole operand; the corner cases and the example of
R112 hold. (R112.) -/
def Obligations.S16SignExtendsThePayload : Prop :=
  (∀ (s : State) (f : Word),
    exec (.s16 f) s =
      .next { s with
        res := (f.extractLsb 23 8).signExtend 32
        crcok := f.extractLsb 7 0 == crc24 (f.extractLsb 31 8) }) ∧
  (∀ a : Word, decode 0x40#8 a = .command (.s16 a)) ∧
  (∀ s : State, exec (.s16 0x018000B7#32) s = .next { s with res := 0xFFFF8000#32, crcok := true } ∧
    exec (.s16 0x017FFF32#32) s = .next { s with res := 0x00007FFF#32, crcok := true } ∧
    exec (.s16 0x01FFFFFB#32) s = .next { s with res := 0xFFFFFFFF#32, crcok := true } ∧
    exec (.s16 0x0100007E#32) s = .next { s with res := 0x00000000#32, crcok := true } ∧
    exec (.s16 0x058001AC#32) s = .next { s with res := 0xFFFF8001#32, crcok := true })

/-- U16 answers next with RES = zext(A[23:8]), CRCOK the frame's check and nothing else changed, in every state and for every
word, whether or not the check passes; its word decodes to it with the whole operand; the corner cases and the example of
R113 hold. (R113.) -/
def Obligations.U16ZeroExtendsThePayload : Prop :=
  (∀ (s : State) (f : Word),
    exec (.u16 f) s =
      .next { s with
        res := (f.extractLsb 23 8).zeroExtend 32
        crcok := f.extractLsb 7 0 == crc24 (f.extractLsb 31 8) }) ∧
  (∀ a : Word, decode 0x41#8 a = .command (.u16 a)) ∧
  (∀ (s t : State) (f : Word), exec (.u16 f) s = .next t → t.res.extractLsb 31 16 = 0x0000#16) ∧
  (∀ s : State, exec (.u16 0x018000B7#32) s = .next { s with res := 0x00008000#32, crcok := true } ∧
    exec (.u16 0x01FFFFFB#32) s = .next { s with res := 0x0000FFFF#32, crcok := true } ∧
    exec (.u16 0x058001AC#32) s = .next { s with res := 0x00008001#32, crcok := true })

/-- S8H answers next with RES = sext(A[23:16]), CRCOK the frame's check and nothing else changed, in every state and for
every word, whether or not the check passes; its word decodes to it with the whole operand; the corner cases and the example
of R114 hold. (R114.) -/
def Obligations.S8hSignExtendsTheHighByte : Prop :=
  (∀ (s : State) (f : Word),
    exec (.s8h f) s =
      .next { s with
        res := (f.extractLsb 23 16).signExtend 32
        crcok := f.extractLsb 7 0 == crc24 (f.extractLsb 31 8) }) ∧
  (∀ a : Word, decode 0x42#8 a = .command (.s8h a)) ∧
  (∀ s : State, exec (.s8h 0x018000B7#32) s = .next { s with res := 0xFFFFFF80#32, crcok := true } ∧
    exec (.s8h 0x057F80D6#32) s = .next { s with res := 0x0000007F#32, crcok := true } ∧
    exec (.s8h 0x01FFFFFB#32) s = .next { s with res := 0xFFFFFFFF#32, crcok := true })

/-- S8L answers next with RES = sext(A[15:8]), CRCOK the frame's check and nothing else changed, in every state and for every
word, whether or not the check passes; its word decodes to it with the whole operand; the corner cases and the example of
R115 hold. (R115.) -/
def Obligations.S8lSignExtendsTheLowByte : Prop :=
  (∀ (s : State) (f : Word),
    exec (.s8l f) s =
      .next { s with
        res := (f.extractLsb 15 8).signExtend 32
        crcok := f.extractLsb 7 0 == crc24 (f.extractLsb 31 8) }) ∧
  (∀ a : Word, decode 0x43#8 a = .command (.s8l a)) ∧
  (∀ s : State, exec (.s8l 0x057F80D6#32) s = .next { s with res := 0xFFFFFF80#32, crcok := true } ∧
    exec (.s8l 0x2AFF7F6D#32) s = .next { s with res := 0x0000007F#32, crcok := true })

/-- RSX answers next with RES = {0, NOT_OK, IS_ER, IS_ST, IS_OK, IS_IN, A[25:24]}, CRCOK the frame's check and nothing else
changed, in every state and for every word, whether or not the check passes; its word decodes to it with the whole operand;
the corner cases and the example of R117 hold. (R117.) -/
def Obligations.RsxDecodesTheReturnStatus : Prop :=
  (∀ (s : State) (f : Word),
    let rs : BitVec 2 := f.extractLsb 25 24
    exec (.rsx f) s =
      .next { s with
        res := 0#25 ++ BitVec.ofBool (rs != 0b01#2) ++ BitVec.ofBool (rs == 0b11#2) ++ BitVec.ofBool (rs == 0b10#2) ++
          BitVec.ofBool (rs == 0b01#2) ++ BitVec.ofBool (rs == 0b00#2) ++ rs
        crcok := f.extractLsb 7 0 == crc24 (f.extractLsb 31 8) }) ∧
  (∀ a : Word, decode 0x50#8 a = .command (.rsx a)) ∧
  (∀ (s t : State) (f : Word), exec (.rsx f) s = .next t →
    t.res.extractLsb 5 2 ∈ [0b0001#4, 0b0010#4, 0b0100#4, 0b1000#4] ∧ t.res.getLsbD 6 = !t.res.getLsbD 3) ∧
  (∀ s : State, exec (.rsx 0x058001AC#32) s = .next { s with res := 0x00000009#32, crcok := true } ∧
    exec (.rsx 0x2F80008E#32) s = .next { s with res := 0x00000063#32, crcok := true } ∧
    exec (.rsx 0xE4000067#32) s = .next { s with res := 0x00000044#32, crcok := true } ∧
    exec (.rsx 0x1601029A#32) s = .next { s with res := 0x00000052#32, crcok := true })

/-- ADDR answers next with RES = zext(A[30:26]), CRCOK the frame's check and nothing else changed, in every state and for
every word, whether or not the check passes; its word decodes to it with the whole operand; the corner cases and the example
of R119 hold. (R119.) -/
def Obligations.AddrExtractsTheRegisterAddress : Prop :=
  (∀ (s : State) (f : Word),
    exec (.addr f) s =
      .next { s with
        res := (f.extractLsb 30 26).zeroExtend 32
        crcok := f.extractLsb 7 0 == crc24 (f.extractLsb 31 8) }) ∧
  (∀ a : Word, decode 0x60#8 a = .command (.addr a)) ∧
  (∀ (s t : State) (f : Word), exec (.addr f) s = .next t → t.res.toNat ≤ 31) ∧
  (∀ s : State, exec (.addr 0xE4000067#32) s = .next { s with res := 0x00000019#32, crcok := true } ∧
    exec (.addr 0x000000F1#32) s = .next { s with res := 0x00000000#32, crcok := true } ∧
    exec (.addr 0x7FFFFFBA#32) s = .next { s with res := 0x0000001F#32, crcok := true })

/-- RW answers next with RES = zext(A[31]), CRCOK the frame's check and nothing else changed, in every state and for every
word, whether or not the check passes; its word decodes to it with the whole operand; the corner cases and the example of
R120 hold. (R120.) -/
def Obligations.RwExtractsTheReadWriteBit : Prop :=
  (∀ (s : State) (f : Word),
    exec (.rw f) s =
      .next { s with
        res := (BitVec.ofBool (f.getLsbD 31)).zeroExtend 32
        crcok := f.extractLsb 7 0 == crc24 (f.extractLsb 31 8) }) ∧
  (∀ a : Word, decode 0x61#8 a = .command (.rw a)) ∧
  (∀ (s t : State) (f : Word), exec (.rw f) s = .next t → t.res = 0x00000000#32 ∨ t.res = 0x00000001#32) ∧
  (∀ s : State, exec (.rw 0xE000025B#32) s = .next { s with res := 0x00000001#32, crcok := true } ∧
    exec (.rw 0x000000F1#32) s = .next { s with res := 0x00000000#32, crcok := true })

/-- ONEHOT answers next with RES = 1 << A[30:26], CRCOK the frame's check and nothing else changed, in every state and for
every word, whether or not the check passes; its word decodes to it with the whole operand; the corner cases and the example
of R121 hold. (R121.) -/
def Obligations.OnehotSelectsOneOf32Lines : Prop :=
  (∀ (s : State) (f : Word),
    exec (.onehot f) s =
      .next { s with
        res := 0x00000001#32 <<< (f.extractLsb 30 26).toNat
        crcok := f.extractLsb 7 0 == crc24 (f.extractLsb 31 8) }) ∧
  (∀ a : Word, decode 0x62#8 a = .command (.onehot a)) ∧
  (∀ (s t : State) (f : Word), exec (.onehot f) s = .next t →
    t.res ≠ 0x00000000#32 ∧ ∀ j, j < 32 → (t.res.getLsbD j = true ↔ j = (f.extractLsb 30 26).toNat)) ∧
  (∀ s : State, exec (.onehot 0xE4000067#32) s = .next { s with res := 0x02000000#32, crcok := true } ∧
    exec (.onehot 0x000000F1#32) s = .next { s with res := 0x00000001#32, crcok := true } ∧
    exec (.onehot 0x7FFFFFBA#32) s = .next { s with res := 0x80000000#32, crcok := true })

/-- For every parameter set and every code, FACC answers next with RES = {t, crc24(t)}, t = {1, addrFacc, 00, p}, p the fixed
bits ORed with the codes shifted to their offsets, and nothing else changed; its word reads the selectors R134 names; the
corner cases hold, and the example under EX for a block built with EX. (R134.) -/
def Obligations.FaccBuildsTheAccelerometerFrame : Prop :=
  (∀ (s : State) (ax ay az : BitVec 3),
    let p : BitVec 16 :=
      s.params.fixFacc ||| (ax.zeroExtend 16 <<< s.params.offAx.val) |||
      (ay.zeroExtend 16 <<< s.params.offAy.val) ||| (az.zeroExtend 16 <<< s.params.offAz.val)
    let t : BitVec 24 := 1#1 ++ s.params.addrFacc ++ 0b00#2 ++ p
    exec (.facc ax ay az) s = .next { s with res := t ++ crc24 t }) ∧
  (∀ a : Word, decode 0x70#8 a = .command (.facc (a.extractLsb 2 0) (a.extractLsb 5 3) (a.extractLsb 8 6))) ∧
  (∀ s t : State, exec (.facc 0#3 0#3 0#3) s = .next t → t.res.extractLsb 23 8 = s.params.fixFacc) ∧
  (∀ (s t : State) (o : Fin 14) (j : Nat), exec (.facc 7#3 7#3 7#3) s = .next t → o ∈ s.params.faccFields → j < 3 →
    t.res.getLsbD (8 + o.val + j) = true) ∧
  (∀ s : State, s.params = Params.ex →
    acceptCommand 0x70#8 0x000000D1#32 s = .next { s with res := 0x84032179#32 } ∧
    acceptCommand 0x70#8 0x000001FF#32 s = .next { s with res := 0x840777C4#32 } ∧
    acceptCommand 0x70#8 0xFFE000D1#32 s = .next { s with res := 0x84032179#32 })

/-- For every parameter set and every code, FGYU answers next with RES = {t, crc24(t)}, t = {1, addrFgyu, 00, p}, p the fixed
bits ORed with the codes shifted to their offsets, and nothing else changed; its word reads the selectors R135 names; the
corner cases hold, and the example under EX for a block built with EX. (R135.) -/
def Obligations.FgyuBuildsTheUnoGyroFrame : Prop :=
  (∀ (s : State) (rx rx2 : BitVec 3),
    let p : BitVec 16 :=
      s.params.fixFgyu ||| (rx.zeroExtend 16 <<< s.params.offRx.val) |||
      (rx2.zeroExtend 16 <<< s.params.offRx2.val)
    let t : BitVec 24 := 1#1 ++ s.params.addrFgyu ++ 0b00#2 ++ p
    exec (.fgyu rx rx2) s = .next { s with res := t ++ crc24 t }) ∧
  (∀ a : Word, decode 0x72#8 a = .command (.fgyu (a.extractLsb 14 12) (a.extractLsb 11 9))) ∧
  (∀ s : State, acceptCommand 0x72#8 0x001A95FF#32 s = acceptCommand 0x72#8 0x00001400#32 s) ∧
  (∀ s : State, s.params = Params.ex →
    acceptCommand 0x72#8 0x00001400#32 s = .next { s with res := 0x880021A7#32 } ∧
    acceptCommand 0x72#8 0x001A95FF#32 s = .next { s with res := 0x880021A7#32 } ∧
    acceptCommand 0x72#8 0x00007E00#32 s = .next { s with res := 0x88007737#32 })

/-- For every parameter set and every code, FGYD answers next with RES = {t, crc24(t)}, t = {1, addrFgyd, 00, p}, p the fixed
bits ORed with the codes shifted to their offsets, and nothing else changed; its word reads the selectors R136 names; the
corner cases hold, and the example under EX for a block built with EX. (R136.) -/
def Obligations.FgydBuildsTheDueGyroFrame : Prop :=
  (∀ (s : State) (rz rz2 ry ry2 : BitVec 3),
    let p : BitVec 16 :=
      s.params.fixFgyd ||| (rz.zeroExtend 16 <<< s.params.offRz.val) |||
      (rz2.zeroExtend 16 <<< s.params.offRz2.val) ||| (ry.zeroExtend 16 <<< s.params.offRy.val) |||
      (ry2.zeroExtend 16 <<< s.params.offRy2.val)
    let t : BitVec 24 := 1#1 ++ s.params.addrFgyd ++ 0b00#2 ++ p
    exec (.fgyd rz rz2 ry ry2) s = .next { s with res := t ++ crc24 t }) ∧
  (∀ a : Word, decode 0x73#8 a =
    .command (.fgyd (a.extractLsb 14 12) (a.extractLsb 11 9) (a.extractLsb 20 18) (a.extractLsb 17 15))) ∧
  (∀ (s t : State) (o : Fin 14) (j : Nat), exec (.fgyd 7#3 7#3 7#3 7#3) s = .next t → o ∈ s.params.fgydFields → j < 3 →
    t.res.getLsbD (8 + o.val + j) = true) ∧
  (∀ s : State, s.params = Params.ex →
    acceptCommand 0x73#8 0x000E1400#32 s = .next { s with res := 0x8C43219F#32 } ∧
    acceptCommand 0x73#8 0x001FFE00#32 s = .next { s with res := 0x8C7777E3#32 })

/-- In every state and for every frame: S16, S8H and S8L leave RES whose signed value is the field's signed value, in
-32768..32767 and -128..127; U16, ADDR and RW leave RES whose unsigned value is the field's, in 0..65535, 0..31 and 0..1; RSX
leaves the rs field in RES[1:0]. (R123.) -/
def Obligations.ExtractorsGiveTheFieldsValue : Prop :=
  ∀ (s : State) (f : Word),
    (∃ t, exec (.s16 f) s = .next t ∧ t.res.toInt = (f.extractLsb 23 8).toInt ∧
      -32768 ≤ t.res.toInt ∧ t.res.toInt ≤ 32767) ∧
    (∃ t, exec (.u16 f) s = .next t ∧ t.res.toNat = (f.extractLsb 23 8).toNat ∧ t.res.toNat ≤ 65535) ∧
    (∃ t, exec (.s8h f) s = .next t ∧ t.res.toInt = (f.extractLsb 23 16).toInt ∧
      -128 ≤ t.res.toInt ∧ t.res.toInt ≤ 127) ∧
    (∃ t, exec (.s8l f) s = .next t ∧ t.res.toInt = (f.extractLsb 15 8).toInt ∧
      -128 ≤ t.res.toInt ∧ t.res.toInt ≤ 127) ∧
    (∃ t, exec (.addr f) s = .next t ∧ t.res.toNat = (f.extractLsb 30 26).toNat ∧ t.res.toNat ≤ 31) ∧
    (∃ t, exec (.rw f) s = .next t ∧ t.res.toNat = (f.extractLsb 31 31).toNat ∧ t.res.toNat ≤ 1) ∧
    (∃ t, exec (.rsx f) s = .next t ∧ t.res.toNat % 4 = (f.extractLsb 25 24).toNat)

/-- For each of S16, U16, S8H, S8L, RSX, ADDR, RW and ONEHOT, in every state: two frames that differ only in their CRC byte
leave the same RES, each leaves CRCOK = (A[7:0] == crc24(A[31:8])), and nothing else changes. (R110.) -/
def Obligations.CrcMismatchNeverChangesTheDecode : Prop :=
  ∀ mk ∈ [Instr.s16, Instr.u16, Instr.s8h, Instr.s8l, Instr.rsx, Instr.addr, Instr.rw, Instr.onehot],
    ∀ (s : State) (f g : Word), f.extractLsb 31 8 = g.extractLsb 31 8 → ∃ v : Word,
      exec (mk f) s = .next { s with res := v, crcok := f.extractLsb 7 0 == crc24 (f.extractLsb 31 8) } ∧
      exec (mk g) s = .next { s with res := v, crcok := g.extractLsb 7 0 == crc24 (g.extractLsb 31 8) }

/-- In every state and for every frame, RSX sets exactly the bit of the code R116 gives A[25:24] (IN 0, OK 1, ST 2, ER 3)
among RES[2] to RES[5], sets RES[6] exactly when the code is not OK, and changes only RES and CRCOK. (R116, R117, R118.) -/
def Obligations.NotOkIsEveryCodeButOk : Prop :=
  ∀ (s : State) (f : Word), ∃ t, exec (.rsx f) s = .next t ∧
    (t.res.getLsbD 2 = true ↔ returnStatus (f.extractLsb 25 24) = .IN) ∧
    (t.res.getLsbD 3 = true ↔ returnStatus (f.extractLsb 25 24) = .OK) ∧
    (t.res.getLsbD 4 = true ↔ returnStatus (f.extractLsb 25 24) = .ST) ∧
    (t.res.getLsbD 5 = true ↔ returnStatus (f.extractLsb 25 24) = .ER) ∧
    (t.res.getLsbD 6 = true ↔ f.extractLsb 25 24 ≠ 0b01#2) ∧
    t.acc = s.acc ∧ t.err = s.err

/-- In every state, with every parameter set and every operand, PACK, FACC, FGYU and FGYD leave a RES whose bits 25..24 are
00 and which VERIFY accepts; the filter frames have the R/W bit 1 and their kind's address. (R68, R89, R133.) -/
def Obligations.BuiltFramesCarryStatusZeroAndPass : Prop :=
  ∀ (s u : State),
    (∀ i : Instr, i.cmdWord ∈ [0x10#8, 0x70#8, 0x72#8, 0x73#8] → ∃ t, exec i s = .next t ∧
      t.res.extractLsb 25 24 = 0b00#2 ∧ ∃ v, exec (.verify t.res) u = .next v ∧ v.crcok = true) ∧
    (∀ x y z, ∃ t, exec (.facc x y z) s = .next t ∧ t.res.getLsbD 31 = true ∧
      t.res.extractLsb 30 26 = s.params.addrFacc) ∧
    (∀ x y, ∃ t, exec (.fgyu x y) s = .next t ∧ t.res.getLsbD 31 = true ∧ t.res.extractLsb 30 26 = s.params.addrFgyu) ∧
    (∀ x y z w, ∃ t, exec (.fgyd x y z w) s = .next t ∧ t.res.getLsbD 31 = true ∧
      t.res.extractLsb 30 26 = s.params.addrFgyd)

/-- For every block with a legal parameter set: two filter commands of one kind that differ in one selector build frames that
agree in every bit from 8 up outside that selector's field and differ in the CRC byte. One clause for each of the nine
selectors. (R137.) -/
def Obligations.ChangingOneFilterCodeChangesOnlyItsField : Prop :=
  ∀ s : State, s.params.wellFormed = true →
    (∀ x x' y z, x ≠ x' → changesOnlyField s.params.offAx (s.after (.facc x y z)).res (s.after (.facc x' y z)).res) ∧
    (∀ x y y' z, y ≠ y' → changesOnlyField s.params.offAy (s.after (.facc x y z)).res (s.after (.facc x y' z)).res) ∧
    (∀ x y z z', z ≠ z' → changesOnlyField s.params.offAz (s.after (.facc x y z)).res (s.after (.facc x y z')).res) ∧
    (∀ x x' y, x ≠ x' → changesOnlyField s.params.offRx (s.after (.fgyu x y)).res (s.after (.fgyu x' y)).res) ∧
    (∀ x y y', y ≠ y' → changesOnlyField s.params.offRx2 (s.after (.fgyu x y)).res (s.after (.fgyu x y')).res) ∧
    (∀ x x' y z w, x ≠ x' →
      changesOnlyField s.params.offRz (s.after (.fgyd x y z w)).res (s.after (.fgyd x' y z w)).res) ∧
    (∀ x y y' z w, y ≠ y' →
      changesOnlyField s.params.offRz2 (s.after (.fgyd x y z w)).res (s.after (.fgyd x y' z w)).res) ∧
    (∀ x y z z' w, z ≠ z' →
      changesOnlyField s.params.offRy (s.after (.fgyd x y z w)).res (s.after (.fgyd x y z' w)).res) ∧
    (∀ x y z w w', w ≠ w' →
      changesOnlyField s.params.offRy2 (s.after (.fgyd x y z w)).res (s.after (.fgyd x y z w')).res)

/-- Under EX, by the pseudocode of R133, R136 and R81, FGYD 0, 0, 0, 0 and FGYD 7, 2, 3, 0 build different payloads and the
same CRC byte. This goes against the plain reading of R137's last sentence, which the model reads as about a change of one
selector (log 13). (R81, R133, R136, 95_test_vectors.md section 3.) -/
def Obligations.CrcByteCanStayWhenSeveralCodesChange : Prop :=
  ∀ s : State, s.params = Params.ex →
    exec (.fgyd 0#3 0#3 0#3 0#3) s = .next { s with res := 0x8C00003B#32 } ∧
    exec (.fgyd 7#3 2#3 3#3 0#3) s = .next { s with res := 0x8C03273B#32 }

/-- For every block with a legal parameter set, the frames FACC, FGYU and FGYD build hold each code, unchanged, in the
payload bits [offset + 2 : offset] of its field, and every payload bit in no field of the kind is that of the kind's fixed
constant. (R131, R132, R134, R135, R136.) -/
def Obligations.FilterCodesAndFixedBitsReadBack : Prop :=
  ∀ s : State, s.params.wellFormed = true →
    (∀ ax ay az, ∃ t, exec (.facc ax ay az) s = .next t ∧
      t.res.extractLsb' (8 + s.params.offAx.val) 3 = ax ∧ t.res.extractLsb' (8 + s.params.offAy.val) 3 = ay ∧
      t.res.extractLsb' (8 + s.params.offAz.val) 3 = az ∧
      ∀ j, j < 16 → (∀ o ∈ s.params.faccFields, j < o.val ∨ o.val + 3 ≤ j) →
        t.res.getLsbD (8 + j) = s.params.fixFacc.getLsbD j) ∧
    (∀ rx rx2, ∃ t, exec (.fgyu rx rx2) s = .next t ∧
      t.res.extractLsb' (8 + s.params.offRx.val) 3 = rx ∧ t.res.extractLsb' (8 + s.params.offRx2.val) 3 = rx2 ∧
      ∀ j, j < 16 → (∀ o ∈ s.params.fgyuFields, j < o.val ∨ o.val + 3 ≤ j) →
        t.res.getLsbD (8 + j) = s.params.fixFgyu.getLsbD j) ∧
    (∀ rz rz2 ry ry2, ∃ t, exec (.fgyd rz rz2 ry ry2) s = .next t ∧
      t.res.extractLsb' (8 + s.params.offRz.val) 3 = rz ∧ t.res.extractLsb' (8 + s.params.offRz2.val) 3 = rz2 ∧
      t.res.extractLsb' (8 + s.params.offRy.val) 3 = ry ∧ t.res.extractLsb' (8 + s.params.offRy2.val) 3 = ry2 ∧
      ∀ j, j < 16 → (∀ o ∈ s.params.fgydFields, j < o.val ∨ o.val + 3 ≤ j) →
        t.res.getLsbD (8 + j) = s.params.fixFgyd.getLsbD j)

/-- The model's legality check accepts a set exactly when no two code fields of a kind overlap, no fixed constant has a 1 in
a code field of its kind, and the accelerometer codes can each be given one bit directly above or below (the model's reading
of the slot, log 4) so that the three 4-bit slots are b, b + 4, b + 8 in some order within 16 bits. (R132, R14.) -/
def Obligations.LegalParametersMeetTheConstraints : Prop :=
  ∀ p : Params, p.wellFormed = true ↔
    (∀ os ∈ [p.faccFields, p.fgyuFields, p.fgydFields],
      os.Pairwise fun o o' => o.val + 3 ≤ o'.val ∨ o'.val + 3 ≤ o.val) ∧
    (∀ o ∈ p.faccFields, ∀ j, j < 3 → p.fixFacc.getLsbD (o.val + j) = false) ∧
    (∀ o ∈ p.fgyuFields, ∀ j, j < 3 → p.fixFgyu.getLsbD (o.val + j) = false) ∧
    (∀ o ∈ p.fgydFields, ∀ j, j < 3 → p.fixFgyd.getLsbD (o.val + j) = false) ∧
    ∃ x y z b : Nat, (x = p.offAx.val ∨ x + 1 = p.offAx.val) ∧ (y = p.offAy.val ∨ y + 1 = p.offAy.val) ∧
      (z = p.offAz.val ∨ z + 1 = p.offAz.val) ∧ b + 12 ≤ 16 ∧ [x, y, z].Perm [b, b + 4, b + 8]

/-- EX, with the values of 95_test_vectors.md section 3, is a legal parameter set. (R132, 95_test_vectors.md section 3.) -/
def Obligations.ExampleParametersAreLegal : Prop :=
  Params.ex.wellFormed = true ∧
  [Params.ex.offAx.val, Params.ex.offAy.val, Params.ex.offAz.val] = [0, 4, 8] ∧
  [Params.ex.offRx.val, Params.ex.offRx2.val] = [0, 4] ∧
  [Params.ex.offRz.val, Params.ex.offRz2.val, Params.ex.offRy.val, Params.ex.offRy2.val] = [0, 4, 8, 12] ∧
  [Params.ex.addrFacc, Params.ex.addrFgyu, Params.ex.addrFgyd] = [0x01#5, 0x02#5, 0x03#5] ∧
  [Params.ex.fixFacc, Params.ex.fixFgyu, Params.ex.fixFgyd] = [0x0000#16, 0x0000#16, 0x0000#16]

/-- In every state, whatever the host presents, the step answers next when the parameter set is legal, and refuses with
illegalParameters when it is not; no command fails and nothing faults. That it is every step that refuses an illegal set is
the model's reading (log 3). (R132, R152, R68.) -/
def Obligations.StepCompletesUnlessParametersAreIllegal : Prop :=
  ∀ s : State,
    (s.params.wellFormed = true → ∃ t, step s = .next t) ∧
    (s.params.wellFormed = false → step s = .refused .illegalParameters)

/-- The invariant that ERR is 1 and no edge to come shows rst = 1 (State.errLatched) is kept by every step, from every state: no
command clears ERR. (R24, R150, R154.) -/
def Obligations.SetErrStaysUntilReset : Prop :=
  ∀ s t : State, s.errLatched = true → step s = .next t → t.errLatched = true

/-- The invariant that ERR is 0 and every command to come is a defined word (State.clean) is kept by every step, from every
state: no defined command sets ERR, whatever its operand. (R150, R152, 92_eei_decisions.md D8.) -/
def Obligations.CleanHostNeverSetsErr : Prop :=
  ∀ s t : State, s.clean = true → step s = .next t → t.clean = true

/-- State.reset meets the invariant of CleanHostNeverSetsErr, and so does the reset state with any list of defined commands
presented. (R30, 92_eei_decisions.md D8.) -/
def Obligations.ResetStateIsClean : Prop :=
  State.reset.clean = true ∧
  ∀ cs : List Command, (∀ c ∈ cs, reservedWord c.cmd = false) → (State.reset.present cs).clean = true

/-- In every state, whatever is presented, a step that answers next leaves every parameter as it was. (R20, R170.) It drops
the first input sample, if there is one: this clause is the model's own choice (log 1), which no rule of the spec states. -/
def Obligations.NoStepChangesTheParameters : Prop :=
  ∀ s t : State, step s = .next t → t.params = s.params ∧ t.inputs = s.inputs.drop 1

/-- In every state, at an edge without reset: RES changes only by the sixteen commands that write it, ACC only by CRCI and
CRCB, CRCOK only by VERIFY and the eight decoders, ERR only by a reserved word, which sets it; each only when cmd_valid = 1.
(R20, R24, R150.) -/
def Obligations.OnlyTheListedCommandsWriteEachElement : Prop :=
  ∀ (s t : State) (cmdValid : Bool) (cmd : Byte) (a : Word) (ps : List PortSample),
    s.inputs = ⟨false, cmdValid, cmd, a⟩ :: ps → step s = .next t →
    (t.res ≠ s.res → cmdValid = true ∧ cmd ∈ [0x10#8, 0x20#8, 0x30#8, 0x40#8, 0x41#8, 0x42#8, 0x43#8, 0x50#8, 0x60#8,
      0x61#8, 0x62#8, 0x70#8, 0x72#8, 0x73#8, 0x82#8, 0x83#8]) ∧
    (t.acc ≠ s.acc → cmdValid = true ∧ cmd ∈ [0x80#8, 0x81#8]) ∧
    (t.crcok ≠ s.crcok → cmdValid = true ∧
      cmd ∈ [0x30#8, 0x40#8, 0x41#8, 0x42#8, 0x43#8, 0x50#8, 0x60#8, 0x61#8, 0x62#8]) ∧
    (t.err ≠ s.err → cmdValid = true ∧ reservedWord cmd = true ∧ t.err = true)

/-- For every command and state: replacing RES, CRCOK and ERR before the command by any values changes nothing in what it
writes; an element it does not write keeps the replaced value. (R20, R28.) -/
def Obligations.NoCommandReadsResCrcokOrErr : Prop :=
  ∀ (i : Instr) (s : State) (r : Word) (c e : Bool), ∃ t, exec i s = .next t ∧
    exec i { s with res := r, crcok := c, err := e } =
      .next { t with res := if writesRes i then t.res else r, crcok := if readsFrame i then t.crcok else c, err := e }

/-- For every frame-reading command, in every state: doing it again changes nothing, and in any other state it writes the
same RES and CRCOK. (R50.) -/
def Obligations.RepeatingAFrameReadChangesNothing : Prop :=
  ∀ (i : Instr) (s u : State), readsFrame i = true → ∃ t v, exec i s = .next t ∧ exec i t = .next t ∧
    exec i u = .next v ∧ v.res = t.res ∧ v.crcok = t.crcok

/-- From every state with a legal parameter set whose next samples present the encodings of a list of commands, as many steps
as commands answer next with the state that exec of each, in order, leaves, each run whole before the next, and those samples
consumed. (R51, R69, R173.) -/
def Obligations.PresentedCommandsRunInOrder : Prop :=
  ∀ (is : List Instr) (s : State) (ps : List PortSample), s.params.wellFormed = true →
    s.inputs = (is.map encode).map PortSample.ofCommand ++ ps →
    runSteps is.length s = .next { s.afterAll is with inputs := ps }

/-- The wire bits of a frame are its 32 bits from bit 31 down to bit 0; its wire bytes are A[31:24], A[23:16], A[15:8],
A[7:0], and their bits, most significant first, are the wire bits. (R44, R45.) -/
def Obligations.FrameGoesOverTheWireMostSignificantFirst : Prop :=
  ∀ f : Word,
    (wireBits f).length = 32 ∧ (∀ k, k < 32 → (wireBits f)[k]? = some (f.getLsbD (31 - k))) ∧
    wireBytes f = [f.extractLsb 31 24, f.extractLsb 23 16, f.extractLsb 15 8, f.extractLsb 7 0] ∧
    (wireBytes f).flatMap (fun b => (List.range 8).map fun k => b.getLsbD (7 - k)) = wireBits f

/-- WRITE addr, data is PACK 1, addr, data; READ addr is PACK 0, addr, 0; SETNORMAL is PACK 1, 0x19, 0 and gives 0xE4000067;
SETEOI is PACK 1, 0x18, 2 and gives 0xE000025B; CRCSER t is CRCI, then CRCB t[23] to CRCB t[0], then CRCF, 26 commands.
(R70.) -/
def Obligations.PseudoInstructionsExpandAsTabulated : Prop :=
  let cmds := fun (m : Mnemonic) (ns : List Nat) => SourceLine.commands ⟨m, false, ns⟩
  (∀ addr data, cmds .write [addr, data] = cmds .pack [1, addr, data]) ∧
  (∀ addr, cmds .read [addr] = cmds .pack [0, addr, 0x0000]) ∧
  cmds .setnormal [] = cmds .pack [1, 0x19, 0x0000] ∧ cmds .seteoi [] = cmds .pack [1, 0x18, 0x0002] ∧
  (∀ s : State, ∀ c ∈ cmds .setnormal [], acceptCommand c.cmd c.a s = .next { s with res := 0xE4000067#32 }) ∧
  (∀ s : State, ∀ c ∈ cmds .seteoi [], acceptCommand c.cmd c.a s = .next { s with res := 0xE000025B#32 }) ∧
  (∀ t, cmds .crcser [t] = cmds .crci [] ++
    ([23, 22, 21, 20, 19, 18, 17, 16, 15, 14, 13, 12, 11, 10, 9, 8, 7, 6, 5, 4, 3, 2, 1, 0].flatMap
      fun i => cmds .crcb [((BitVec.ofNat 24 t).getLsbD i).toNat]) ++ cmds .crcf []) ∧
  (∀ t, (cmds .crcser [t]).length = 26)

/-- In the model of the link partner, for every sequence of requests to one chip: as many frames come back as requests go
out, the first is what the slot held before, the paired frames are the answers to all requests but the last, and the other
chip's slot is untouched. (R31, R32, R175.) -/
def Obligations.LinkAnswersComeOneExchangeLate : Prop :=
  ∀ (role other : ChipRole) (requests : List Word) (l : LinkPartner),
    (exchangeAll role requests l).1.length = requests.length ∧
    (requests ≠ [] → (exchangeAll role requests l).1.head? = some (l.slot role)) ∧
    pairResponses requests (exchangeAll role requests l).1 = (requests.zip (answersAlong role requests l)).dropLast ∧
    (other ≠ role → (exchangeAll role requests l).2.slot other = l.slot other)
end

