-- ==== Sys2Proof/Laws/Crc.lean ====
section
/-! SUPPORT. The CRC functions one step at a time, and the two parts of a frame built with its CRC. -/

namespace Sys2Proof.Machine

/-- The step as a shift and a conditional XOR. -/
theorem crc8Step_eq (b : Bool) (s : Byte) :
    crc8Step b s = (s <<< 1) ^^^ (bif s.getLsbD 7 ^^ b then 0x1D#8 else 0x00#8) := by
  unfold crc8Step Config.crcPoly
  generalize (s.getLsbD 7 ^^ b) = t
  cases t
  · exact (BitVec.xor_zero).symm
  · rfl

@[simp] theorem crcFold_zero (t : BitVec 24) (s : Byte) : crcFold t 0 s = s := rfl

theorem crcFold_succ (t : BitVec 24) (n : Nat) (s : Byte) :
    crcFold t (n + 1) s = crcFold t n (crc8Step (t.getLsbD n) s) := rfl

/-- Bit k of a frame built with its CRC: the CRC below bit 8, the span above. -/
theorem withCrc_getLsbD (t : BitVec 24) (k : Nat) :
    (withCrc t).getLsbD k = if k < 8 then (crc24 t).getLsbD k else t.getLsbD (k - 8) := by
  simp only [withCrc, BitVec.getLsbD_append]

/-- The embedded CRC of a frame built with its CRC. -/
@[simp] theorem frameCrc_withCrc (t : BitVec 24) : frameCrc (withCrc t) = crc24 t := by
  apply BitVec.eq_of_getLsbD_eq
  intro i hi
  simp only [frameCrc, BitVec.getLsbD_extractLsb', Nat.zero_add, withCrc_getLsbD, hi, decide_true, Bool.true_and, if_true]

/-- The CRC span of a frame built with its CRC. -/
@[simp] theorem frameTop24_withCrc (t : BitVec 24) : frameTop24 (withCrc t) = t := by
  apply BitVec.eq_of_getLsbD_eq
  intro i hi
  have h : ¬ 8 + i < 8 := by omega
  simp only [frameTop24, BitVec.getLsbD_extractLsb', withCrc_getLsbD, hi, decide_true, Bool.true_and, h, if_false,
    Nat.add_sub_cancel_left]

end Sys2Proof.Machine
end

