-- ==== Sys2Proof/Laws/Decode.lean ====
section
/-! SUPPORT. What the decoder answers for each defined word, and the operand words of the encoder outside their forms. -/

namespace Sys2Proof

@[simp] theorem decode_nop (a : Word) : decode 0x00#8 a = .command .nop := rfl
@[simp] theorem decode_pack (a : Word) :
    decode 0x10#8 a = .command (.pack (a.getLsbD 21) (a.extractLsb' 16 5) (a.extractLsb' 0 16)) := rfl
@[simp] theorem decode_crc (a : Word) : decode 0x20#8 a = .command (.crc (a.extractLsb' 8 24)) := rfl
@[simp] theorem decode_verify (a : Word) : decode 0x30#8 a = .command (.verify a) := rfl
@[simp] theorem decode_s16 (a : Word) : decode 0x40#8 a = .command (.s16 a) := rfl
@[simp] theorem decode_u16 (a : Word) : decode 0x41#8 a = .command (.u16 a) := rfl
@[simp] theorem decode_s8h (a : Word) : decode 0x42#8 a = .command (.s8h a) := rfl
@[simp] theorem decode_s8l (a : Word) : decode 0x43#8 a = .command (.s8l a) := rfl
@[simp] theorem decode_rsx (a : Word) : decode 0x50#8 a = .command (.rsx a) := rfl
@[simp] theorem decode_addr (a : Word) : decode 0x60#8 a = .command (.addr a) := rfl
@[simp] theorem decode_rw (a : Word) : decode 0x61#8 a = .command (.rw a) := rfl
@[simp] theorem decode_onehot (a : Word) : decode 0x62#8 a = .command (.onehot a) := rfl
@[simp] theorem decode_facc (a : Word) :
    decode 0x70#8 a = .command (.facc (a.extractLsb' 0 3) (a.extractLsb' 3 3) (a.extractLsb' 6 3)) := rfl
@[simp] theorem decode_fgyu (a : Word) :
    decode 0x72#8 a = .command (.fgyu (a.extractLsb' 12 3) (a.extractLsb' 9 3)) := rfl
@[simp] theorem decode_fgyd (a : Word) :
    decode 0x73#8 a =
      .command (.fgyd (a.extractLsb' 12 3) (a.extractLsb' 9 3) (a.extractLsb' 18 3) (a.extractLsb' 15 3)) := rfl
@[simp] theorem decode_crci (a : Word) : decode 0x80#8 a = .command .crci := rfl
@[simp] theorem decode_crcb (a : Word) : decode 0x81#8 a = .command (.crcb (a.getLsbD 0)) := rfl
@[simp] theorem decode_crcf (a : Word) : decode 0x82#8 a = .command .crcf := rfl
@[simp] theorem decode_crcr (a : Word) : decode 0x83#8 a = .command .crcr := rfl

/-- The two words the encoder writes. -/
@[simp] theorem encode_cmd (i : Instr) : (encode i).cmd = i.cmdWord := rfl
@[simp] theorem encode_a (i : Instr) : (encode i).a = i.operandWord := rfl

/-- A form that reads the whole operand leaves no bit outside it. -/
theorem whole_operand (f : Word) : f &&& ~~~ 0xFFFFFFFF#32 = 0#32 := by
  rw [show ~~~ 0xFFFFFFFF#32 = 0#32 from by decide, BitVec.and_zero]

theorem packOperand_outside (w : Bool) (r : BitVec 5) (d : BitVec 16) :
    (Instr.pack w r d).operandWord &&& ~~~ operandMask 0x10#8 = 0#32 := by
  apply BitVec.eq_of_getLsbD_eq
  intro i hi
  simp only [Instr.operandWord, operandMask, BitVec.getLsbD_and, BitVec.getLsbD_append]
  interval_cases i <;> simp

theorem crcOperand_outside (t : BitVec 24) :
    (Instr.crc t).operandWord &&& ~~~ operandMask 0x20#8 = 0#32 := by
  apply BitVec.eq_of_getLsbD_eq
  intro i hi
  simp only [Instr.operandWord, operandMask, BitVec.getLsbD_and, BitVec.getLsbD_append]
  interval_cases i <;> simp

theorem faccOperand_outside (x y z : BitVec 3) :
    (Instr.facc x y z).operandWord &&& ~~~ operandMask 0x70#8 = 0#32 := by
  apply BitVec.eq_of_getLsbD_eq
  intro i hi
  simp only [Instr.operandWord, operandMask, BitVec.getLsbD_and, BitVec.getLsbD_append]
  interval_cases i <;> simp

theorem fgyuOperand_outside (x y : BitVec 3) :
    (Instr.fgyu x y).operandWord &&& ~~~ operandMask 0x72#8 = 0#32 := by
  apply BitVec.eq_of_getLsbD_eq
  intro i hi
  simp only [Instr.operandWord, operandMask, BitVec.getLsbD_and, BitVec.getLsbD_append]
  interval_cases i <;> simp

theorem fgydOperand_outside (x y z w : BitVec 3) :
    (Instr.fgyd x y z w).operandWord &&& ~~~ operandMask 0x73#8 = 0#32 := by
  apply BitVec.eq_of_getLsbD_eq
  intro i hi
  simp only [Instr.operandWord, operandMask, BitVec.getLsbD_and, BitVec.getLsbD_append]
  interval_cases i <;> simp

end Sys2Proof
end

