-- ==== Sys2Proof/Laws/Link.lean ====
section
/-! SUPPORT. What one exchange with a chip can do, said once (70_reset_and_hazards.md R175, 10_state.md R32). -/

namespace Sys2Proof.Machine

@[simp] theorem exchange_received (role : ChipRole) (request : Word) (l : LinkPartner) :
    (exchange role request l).1 = l.slot role := rfl

@[simp] theorem exchange_run (role : ChipRole) (request : Word) (l : LinkPartner) :
    (exchange role request l).2.run = l.run := by cases role <;> rfl

@[simp] theorem exchange_history (role : ChipRole) (request : Word) (l : LinkPartner) :
    (exchange role request l).2.history = (role, request) :: l.history := by cases role <;> rfl

@[simp] theorem exchange_slot_same (role : ChipRole) (request : Word) (l : LinkPartner) :
    (exchange role request l).2.slot role = l.answer role request := by cases role <;> rfl

theorem exchange_slot_other {role other : ChipRole} (h : other ≠ role) (request : Word) (l : LinkPartner) :
    (exchange role request l).2.slot other = l.slot other := by
  cases role <;> cases other <;> first | rfl | exact absurd rfl h

end Sys2Proof.Machine
end

