-- ==== Sys2Proof/Laws/State.lean ====
section
/-! SUPPORT. One lemma per field per update of the state, each true by `rfl`, so that no proof unfolds a record update. -/

namespace Sys2Proof.Machine

@[simp] theorem writeRes_res (v : Word) (s : State) : (writeRes v s).res = v := rfl
@[simp] theorem writeRes_acc (v : Word) (s : State) : (writeRes v s).acc = s.acc := rfl
@[simp] theorem writeRes_crcok (v : Word) (s : State) : (writeRes v s).crcok = s.crcok := rfl
@[simp] theorem writeRes_err (v : Word) (s : State) : (writeRes v s).err = s.err := rfl
@[simp] theorem writeRes_params (v : Word) (s : State) : (writeRes v s).params = s.params := rfl
@[simp] theorem writeRes_inputs (v : Word) (s : State) : (writeRes v s).inputs = s.inputs := rfl

@[simp] theorem writeAcc_res (v : Byte) (s : State) : (writeAcc v s).res = s.res := rfl
@[simp] theorem writeAcc_acc (v : Byte) (s : State) : (writeAcc v s).acc = v := rfl
@[simp] theorem writeAcc_crcok (v : Byte) (s : State) : (writeAcc v s).crcok = s.crcok := rfl
@[simp] theorem writeAcc_err (v : Byte) (s : State) : (writeAcc v s).err = s.err := rfl
@[simp] theorem writeAcc_params (v : Byte) (s : State) : (writeAcc v s).params = s.params := rfl
@[simp] theorem writeAcc_inputs (v : Byte) (s : State) : (writeAcc v s).inputs = s.inputs := rfl

@[simp] theorem writeCrcok_res (b : Bool) (s : State) : (writeCrcok b s).res = s.res := rfl
@[simp] theorem writeCrcok_acc (b : Bool) (s : State) : (writeCrcok b s).acc = s.acc := rfl
@[simp] theorem writeCrcok_crcok (b : Bool) (s : State) : (writeCrcok b s).crcok = b := rfl
@[simp] theorem writeCrcok_err (b : Bool) (s : State) : (writeCrcok b s).err = s.err := rfl
@[simp] theorem writeCrcok_params (b : Bool) (s : State) : (writeCrcok b s).params = s.params := rfl
@[simp] theorem writeCrcok_inputs (b : Bool) (s : State) : (writeCrcok b s).inputs = s.inputs := rfl

@[simp] theorem readFrame_res (f v : Word) (s : State) : (readFrame f v s).res = v := rfl
@[simp] theorem readFrame_acc (f v : Word) (s : State) : (readFrame f v s).acc = s.acc := rfl
@[simp] theorem readFrame_crcok (f v : Word) (s : State) : (readFrame f v s).crcok = crcMatches f := rfl
@[simp] theorem readFrame_err (f v : Word) (s : State) : (readFrame f v s).err = s.err := rfl
@[simp] theorem readFrame_params (f v : Word) (s : State) : (readFrame f v s).params = s.params := rfl
@[simp] theorem readFrame_inputs (f v : Word) (s : State) : (readFrame f v s).inputs = s.inputs := rfl

@[simp] theorem raiseReservedCommand_res (c : Byte) (s : State) : (raiseReservedCommand c s).res = s.res := rfl
@[simp] theorem raiseReservedCommand_acc (c : Byte) (s : State) : (raiseReservedCommand c s).acc = s.acc := rfl
@[simp] theorem raiseReservedCommand_crcok (c : Byte) (s : State) : (raiseReservedCommand c s).crcok = s.crcok := rfl
@[simp] theorem raiseReservedCommand_err (c : Byte) (s : State) : (raiseReservedCommand c s).err = true := rfl
@[simp] theorem raiseReservedCommand_params (c : Byte) (s : State) : (raiseReservedCommand c s).params = s.params := rfl
@[simp] theorem raiseReservedCommand_inputs (c : Byte) (s : State) : (raiseReservedCommand c s).inputs = s.inputs := rfl

@[simp] theorem applyReset_res (s : State) : (applyReset s).res = 0x00000000#32 := rfl
@[simp] theorem applyReset_acc (s : State) : (applyReset s).acc = 0xFF#8 := rfl
@[simp] theorem applyReset_crcok (s : State) : (applyReset s).crcok = false := rfl
@[simp] theorem applyReset_err (s : State) : (applyReset s).err = false := rfl
@[simp] theorem applyReset_params (s : State) : (applyReset s).params = s.params := rfl
@[simp] theorem applyReset_inputs (s : State) : (applyReset s).inputs = s.inputs := rfl

@[simp] theorem present_res (s : State) (cs : List Command) : (s.present cs).res = s.res := rfl
@[simp] theorem withFetchWord_res (s : State) (nbits w : Nat) : (s.withFetchWord nbits w).res = s.res := rfl
@[simp] theorem present_acc (s : State) (cs : List Command) : (s.present cs).acc = s.acc := rfl
@[simp] theorem withFetchWord_acc (s : State) (nbits w : Nat) : (s.withFetchWord nbits w).acc = s.acc := rfl
@[simp] theorem present_crcok (s : State) (cs : List Command) : (s.present cs).crcok = s.crcok := rfl
@[simp] theorem withFetchWord_crcok (s : State) (nbits w : Nat) : (s.withFetchWord nbits w).crcok = s.crcok := rfl
@[simp] theorem present_err (s : State) (cs : List Command) : (s.present cs).err = s.err := rfl
@[simp] theorem withFetchWord_err (s : State) (nbits w : Nat) : (s.withFetchWord nbits w).err = s.err := rfl
@[simp] theorem present_params (s : State) (cs : List Command) : (s.present cs).params = s.params := rfl
@[simp] theorem withFetchWord_params (s : State) (nbits w : Nat) : (s.withFetchWord nbits w).params = s.params := rfl

@[simp] theorem present_inputs (s : State) (cs : List Command) :
    (s.present cs).inputs = s.inputs ++ cs.map PortSample.ofCommand := rfl
@[simp] theorem withFetchWord_inputs (s : State) (nbits w : Nat) :
    (s.withFetchWord nbits w).inputs = PortSample.ofCommand (commandOfTableWord nbits w) :: s.inputs.drop 1 := rfl

@[simp] theorem ofCommand_rst (c : Command) : (PortSample.ofCommand c).rst = false := rfl
@[simp] theorem ofCommand_cmdValid (c : Command) : (PortSample.ofCommand c).cmdValid = true := rfl
@[simp] theorem ofCommand_cmd (c : Command) : (PortSample.ofCommand c).cmd = c.cmd := rfl
@[simp] theorem ofCommand_a (c : Command) : (PortSample.ofCommand c).a = c.a := rfl
@[simp] theorem idle_rst : PortSample.idle.rst = false := rfl
@[simp] theorem idle_cmdValid : PortSample.idle.cmdValid = false := rfl

end Sys2Proof.Machine
end

