-- ==== Sys2Proof/Laws/Ops.lean ====
section
/-! SUPPORT. What each shared operation can do, said once: sampling the inputs, accepting a command, one rising edge, one step. -/

namespace Sys2Proof.Machine

theorem sampleInputs_nil {s : State} (h : s.inputs = []) : sampleInputs s = (PortSample.idle, s) := by
  simp [sampleInputs, h]

theorem sampleInputs_cons {s : State} {p : PortSample} {ps : List PortSample} (h : s.inputs = p :: ps) :
    sampleInputs s = (p, { s with inputs := ps }) := by
  simp [sampleInputs, h]

/-- Sampling changes nothing but the list of inputs still to come. -/
theorem sampleInputs_frame (s : State) :
    (sampleInputs s).2.res = s.res ∧ (sampleInputs s).2.acc = s.acc ∧ (sampleInputs s).2.crcok = s.crcok ∧
      (sampleInputs s).2.err = s.err ∧ (sampleInputs s).2.params = s.params ∧
      (sampleInputs s).2.inputs = s.inputs.drop 1 := by
  cases h : s.inputs with
  | nil => simp [sampleInputs, h]
  | cons p ps => simp [sampleInputs, h]

/-- If accepting a command answers next `t`, then the word is defined and its meaning gave `t`, or it is reserved and only `ERR` is
set. -/
theorem acceptCommand_cases {cmd : Byte} {a : Word} {s t : State} (h : acceptCommand cmd a s = .next t) :
    (∃ i, decode cmd a = .command i ∧ exec i s = .next t) ∨
    (∃ c, decode cmd a = .reservedCommand c ∧ t = raiseReservedCommand c s) := by
  unfold acceptCommand at h
  cases hd : decode cmd a with
  | command i => exact .inl ⟨i, rfl, by simpa [hd] using h⟩
  | reservedCommand c => exact .inr ⟨c, rfl, by simpa [hd] using h.symm⟩

/-- If a rising edge answers next `t`, then it was a reset, an accepted command, or nothing was presented. -/
theorem clockEdge_cases {p : PortSample} {s t : State} (h : clockEdge p s = .next t) :
    (p.rst = true ∧ t = applyReset s) ∨
    (p.rst = false ∧ p.cmdValid = true ∧ acceptCommand p.cmd p.a s = .next t) ∨
    (p.rst = false ∧ p.cmdValid = false ∧ t = s) := by
  unfold clockEdge at h
  cases hr : p.rst with
  | true => exact .inl ⟨rfl, by simpa [hr] using h.symm⟩
  | false =>
    cases hv : p.cmdValid with
    | true => exact .inr (.inl ⟨rfl, rfl, by simpa [hr, hv] using h⟩)
    | false => exact .inr (.inr ⟨rfl, rfl, by simpa [hr, hv] using h.symm⟩)

/-- If a step answers next `t`, then the parameter set is legal and the sampled edge gave `t`. -/
theorem step_cases {s t : State} (h : step s = .next t) :
    s.params.wellFormed = true ∧ clockEdge (sampleInputs s).1 (sampleInputs s).2 = .next t := by
  unfold step clockTick at h
  cases hp : s.params.wellFormed with
  | true => exact ⟨rfl, by simpa [hp] using h⟩
  | false => simp [hp] at h

/-- A step of a machine with a legal parameter set is its sampled edge. -/
theorem step_of_wellFormed {s : State} (h : s.params.wellFormed = true) :
    step s = clockEdge (sampleInputs s).1 (sampleInputs s).2 := by
  simp [step, clockTick, h]

end Sys2Proof.Machine
end

