-- ==== Sys2Proof/Laws/PerInstr.lean ====
section
/-! SUPPORT. A law of every command as syntax, one lemma per constructor: its command word is a defined one (30_encoding.md R65, R66)
and its encoding writes 0 in every operand bit its form does not read (R62, R69). -/

namespace Sys2Proof.Laws.EncodedWord

/-- The command word is defined, and the operand word has no bit outside the form. -/
def Statement (i : Instr) : Prop :=
  reservedWord i.cmdWord = false ∧ i.operandWord &&& ~~~ operandMask i.cmdWord = 0#32

theorem nop : Statement .nop := ⟨rfl, by decide⟩
theorem pack (w : Bool) (r : BitVec 5) (d : BitVec 16) : Statement (.pack w r d) := ⟨rfl, packOperand_outside w r d⟩
theorem crc (t : BitVec 24) : Statement (.crc t) := ⟨rfl, crcOperand_outside t⟩
theorem verify (f : Word) : Statement (.verify f) := ⟨rfl, whole_operand f⟩
theorem s16 (f : Word) : Statement (.s16 f) := ⟨rfl, whole_operand f⟩
theorem u16 (f : Word) : Statement (.u16 f) := ⟨rfl, whole_operand f⟩
theorem s8h (f : Word) : Statement (.s8h f) := ⟨rfl, whole_operand f⟩
theorem s8l (f : Word) : Statement (.s8l f) := ⟨rfl, whole_operand f⟩
theorem rsx (f : Word) : Statement (.rsx f) := ⟨rfl, whole_operand f⟩
theorem addr (f : Word) : Statement (.addr f) := ⟨rfl, whole_operand f⟩
theorem rw (f : Word) : Statement (.rw f) := ⟨rfl, whole_operand f⟩
theorem onehot (f : Word) : Statement (.onehot f) := ⟨rfl, whole_operand f⟩
theorem facc (x y z : BitVec 3) : Statement (.facc x y z) := ⟨rfl, faccOperand_outside x y z⟩
theorem fgyu (x y : BitVec 3) : Statement (.fgyu x y) := ⟨rfl, fgyuOperand_outside x y⟩
theorem fgyd (x y z w : BitVec 3) : Statement (.fgyd x y z w) := ⟨rfl, fgydOperand_outside x y z w⟩
theorem crci : Statement .crci := ⟨rfl, by decide⟩
theorem crcb (b : Bool) : Statement (.crcb b) := ⟨rfl, by cases b <;> decide⟩
theorem crcf : Statement .crcf := ⟨rfl, by decide⟩
theorem crcr : Statement .crcr := ⟨rfl, by decide⟩

end Sys2Proof.Laws.EncodedWord
end

