-- ==== Sys2Proof/Laws/Run.lean ====
section
/-! SUPPORT. A run of the machine is `runSteps`, one edge after another. -/

namespace Sys2Proof.Machine

@[simp] theorem runSteps_zero (s : State) : runSteps 0 s = .next s := rfl

/-- A run whose first step answers next `t` goes on from `t`. -/
theorem runSteps_succ {s t : State} (k : Nat) (h : step s = .next t) : runSteps (k + 1) s = runSteps k t := by
  simp [runSteps, h]

/-- A run stops at a fault. -/
theorem runSteps_fault {s : State} {r : Fault} (k : Nat) (h : step s = .fault r) : runSteps (k + 1) s = .fault r := by
  simp [runSteps, h]

/-- A run stops at a refusal. -/
theorem runSteps_refused {s : State} {r : Refusal} (k : Nat) (h : step s = .refused r) :
    runSteps (k + 1) s = .refused r := by
  simp [runSteps, h]

/-- The host's run of any machine, one step at a time. -/
theorem coreRun_next {M : Host.Core} {s t : M.State} (k : Nat) (h : M.step s = .next t) : M.run (k + 1) s = M.run k t := by
  simp [Host.Core.run, h]

theorem coreRun_fault {M : Host.Core} {s : M.State} {r : M.Fault} (k : Nat) (h : M.step s = .fault r) :
    M.run (k + 1) s = .fault r := by
  simp [Host.Core.run, h]

theorem coreRun_refused {M : Host.Core} {s : M.State} {r : M.Refusal} (k : Nat) (h : M.step s = .refused r) :
    M.run (k + 1) s = .refused r := by
  simp [Host.Core.run, h]

/-- `runSteps` is the host's run of the machine. -/
theorem runSteps_eq_core_run (k : Nat) (s : State) : Sys2Proof.core.run k s = runSteps k s := by
  induction k generalizing s with
  | zero => rfl
  | succ k ih =>
    cases h : step s with
    | next t => exact (coreRun_next (M := Sys2Proof.core) k h).trans ((ih t).trans (runSteps_succ k h).symm)
    | fault r => exact (coreRun_fault (M := Sys2Proof.core) k h).trans (runSteps_fault k h).symm
    | refused r => exact (coreRun_refused (M := Sys2Proof.core) k h).trans (runSteps_refused k h).symm

end Sys2Proof.Machine
end

