-- ==== Sys2Proof/Tests/Slice0.lean ====
section
/-! SUPPORT. The model's own tests: words written out from 30_encoding.md and 95_test_vectors.md, one step each; the ill-formed terms each
check refuses; and, for each statement with hypotheses, a state and operands that meet them. Expected values are the spec's. -/

namespace Sys2Proof.Tests

-- One test after another: many kernel evaluations at once need a thread each, more than the check's memory limit allows.
set_option Elab.async false

open Sys2Proof Sys2Proof.Machine

/-! ## Decoding: each constructor from a word written out from its encoding (30_encoding.md R61 to R65) -/

/-- cmd 0000 0000, any operand. -/
theorem test_decode_nop : decode 0b00000000#8 0xFFFFFFFF#32 = .command (.nop) := by decide

/-- A = 0000000000 1 11001 0000000000000000. -/
theorem test_decode_pack : decode 0b00010000#8 0b00000000001110010000000000000000#32 = .command (.pack true 0b11001#5 0x0000#16) := by decide

/-- A = 1 11000 00 0000000000000010 10101010, the CRC byte not read. -/
theorem test_decode_crc : decode 0b00100000#8 0b11100000000000000000001010101010#32 = .command (.crc 0b111000000000000000000010#24) := by decide

/-- A = 1 11001 00 0000000000000000 01100111. -/
theorem test_decode_verify : decode 0b00110000#8 0b11100100000000000000000001100111#32 = .command (.verify 0xE4000067#32) := by decide

/-- 95_test_vectors.md 2.4. -/
theorem test_decode_s16 : decode 0b01000000#8 0x058001AC#32 = .command (.s16 0x058001AC#32) := by decide

/-- 95_test_vectors.md 2.4. -/
theorem test_decode_u16 : decode 0b01000001#8 0x058001AC#32 = .command (.u16 0x058001AC#32) := by decide

/-- 95_test_vectors.md 2.4. -/
theorem test_decode_s8h : decode 0b01000010#8 0x057F80D6#32 = .command (.s8h 0x057F80D6#32) := by decide

/-- 95_test_vectors.md 2.4. -/
theorem test_decode_s8l : decode 0b01000011#8 0x057F80D6#32 = .command (.s8l 0x057F80D6#32) := by decide

/-- 95_test_vectors.md 2.5. -/
theorem test_decode_rsx : decode 0b01010000#8 0x2F80008E#32 = .command (.rsx 0x2F80008E#32) := by decide

/-- 95_test_vectors.md 2.6. -/
theorem test_decode_addr : decode 0b01100000#8 0xE4000067#32 = .command (.addr 0xE4000067#32) := by decide

/-- 95_test_vectors.md 2.6. -/
theorem test_decode_rw : decode 0b01100001#8 0xE000025B#32 = .command (.rw 0xE000025B#32) := by decide

/-- 95_test_vectors.md 2.6. -/
theorem test_decode_onehot : decode 0b01100010#8 0xE4000067#32 = .command (.onehot 0xE4000067#32) := by decide

/-- A = (23 ignored bits) Az 011 Ay 010 Ax 001. -/
theorem test_decode_facc : decode 0b01110000#8 0b11111111111111111111111011010001#32 = .command (.facc 0b001#3 0b010#3 0b011#3) := by decide

/-- A = ... Rz/Rx 001 Rz2/Rx2 010 (9 ignored bits). -/
theorem test_decode_fgyu : decode 0b01110010#8 0b00000000000110101001010111111111#32 = .command (.fgyu 0b001#3 0b010#3) := by decide

/-- A = (11 ignored) Ry 011 Ry2 100 Rz 001 Rz2 010 (9 ignored). -/
theorem test_decode_fgyd : decode 0b01110011#8 0b00000000000011100001010000000000#32 = .command (.fgyd 0b001#3 0b010#3 0b011#3 0b100#3) := by decide

/-- cmd 1000 0000. -/
theorem test_decode_crci : decode 0b10000000#8 0x00000000#32 = .command (.crci) := by decide

/-- A[0] = 1. -/
theorem test_decode_crcb : decode 0b10000001#8 0x00000001#32 = .command (.crcb true) := by decide

/-- cmd 1000 0010. -/
theorem test_decode_crcf : decode 0b10000010#8 0x00000000#32 = .command (.crcf) := by decide

/-- cmd 1000 0011. -/
theorem test_decode_crcr : decode 0b10000011#8 0x00000000#32 = .command (.crcr) := by decide

/-- A bit outside A[0] is not read by CRCB (40_build_and_crc.md R85). -/
theorem test_decode_crcb_reads_bit_zero : decode 0x81#8 0x00000002#32 = .command (.crcb false) := by decide

/-- FN = 0x1 of the filter group is reserved (30_encoding.md R65), as are the ends of R66's ranges. -/
theorem test_decode_reserved :
    [0x01#8, 0x0F#8, 0x11#8, 0x2F#8, 0x44#8, 0x63#8, 0x71#8, 0x74#8, 0x84#8, 0x90#8, 0xFF#8].all
      (fun c => decode c 0xE4000067#32 == .reservedCommand c) = true := by decide

/-- Of the 256 words 19 are defined (30_encoding.md R65). -/
theorem test_defined_count :
    ((List.range 256).filter fun n => !reservedWord (BitVec.ofNat 8 n)).length = 19 := by decide +kernel

/-- The opcode table's rows as numbers: the command word in the low byte, the operand bits 0. -/
theorem test_table_words :
    [0x00, 0x10, 0x20, 0x30, 0x72, 0x83].map (decodeTableWord 8) =
      [some .nop, some (.pack false 0#5 0#16), some (.crc 0#24), some (.verify 0#32), some (.fgyu 0#3 0#3), some .crcr] ∧
    decodeTableWord 8 0x71 = none ∧ decodeTableWord 40 0x0039000010 = some (.pack true 0x19#5 0#16) := by decide

/-! ## One step each (95_test_vectors.md) -/

/-- A machine under the example set EX (95_test_vectors.md section 3) with these elements and these inputs to come. -/
def machine (res : Word) (acc : Byte) (crcok err : Bool) (inputs : List PortSample) : State :=
  ⟨res, acc, crcok, err, Params.ex, inputs⟩

/-- RES, ACC, CRCOK and ERR after a step, where it answers next. -/
def elements (o : Host.Outcome State Fault Refusal) : Option (Word × Byte × Bool × Bool) :=
  match o with
  | .next t => some (t.res, t.acc, t.crcok, t.err)
  | .fault _ => none
  | .refused _ => none

/-- The four elements after one step that accepts this command, from these elements. -/
def accept (res : Word) (acc : Byte) (crcok err : Bool) (cmd : Byte) (a : Word) : Option (Word × Byte × Bool × Bool) :=
  elements (step (machine res acc crcok err [⟨false, true, cmd, a⟩]))

theorem test_step_nop :
    accept 0x12345678#32 0x55#8 true false 0x00#8 0xFFFFFFFF#32 = some (0x12345678#32, 0x55#8, true, false) := by decide +kernel

theorem test_step_reserved_0x71 :
    accept 0x12345678#32 0x55#8 true false 0x71#8 0x000000D1#32 = some (0x12345678#32, 0x55#8, true, true) := by decide +kernel

theorem test_step_pack_setnormal :
    accept 0x00000000#32 0xFF#8 false true 0x10#8 0x00390000#32 = some (0xE4000067#32, 0xFF#8, false, true) := by decide +kernel

theorem test_step_pack_ones :
    accept 0x00000000#32 0xFF#8 false false 0x10#8 0x003FFFFF#32 = some (0xFCFFFFF6#32, 0xFF#8, false, false) := by decide +kernel

theorem test_step_crc_includes_rs :
    accept 0x00000000#32 0xFF#8 false false 0x20#8 0xE5000000#32 = some (0x000000E8#32, 0xFF#8, false, false) := by decide +kernel

theorem test_step_crc_golden :
    accept 0x00000000#32 0xFF#8 false false 0x20#8 0xE00002AA#32 = some (0x0000005B#32, 0xFF#8, false, false) := by decide +kernel

theorem test_step_verify_good :
    accept 0x00000000#32 0xFF#8 false false 0x30#8 0x2F80008E#32 = some (0x008E8E01#32, 0xFF#8, true, false) := by decide +kernel

theorem test_step_verify_bad :
    accept 0x12345678#32 0x55#8 true false 0x30#8 0xE4000066#32 = some (0x00666700#32, 0x55#8, false, false) := by decide +kernel

theorem test_step_s16 :
    accept 0x00000000#32 0xFF#8 false false 0x40#8 0x2AFF7F6D#32 = some (0xFFFFFF7F#32, 0xFF#8, true, false) := by decide +kernel

theorem test_step_s16_corrupted :
    accept 0x12345678#32 0x55#8 true false 0x40#8 0x2AFF6F6D#32 = some (0xFFFFFF6F#32, 0x55#8, false, false) := by decide +kernel

theorem test_step_u16 :
    accept 0x00000000#32 0xFF#8 false false 0x41#8 0x058001AC#32 = some (0x00008001#32, 0xFF#8, true, false) := by decide +kernel

theorem test_step_u16_bad_crc :
    accept 0x12345678#32 0x55#8 true false 0x41#8 0x4112240C#32 = some (0x00001224#32, 0x55#8, false, false) := by decide +kernel

theorem test_step_s8h :
    accept 0x00000000#32 0xFF#8 false false 0x42#8 0x057F80D6#32 = some (0x0000007F#32, 0xFF#8, true, false) := by decide +kernel

theorem test_step_s8h_negative :
    accept 0x00000000#32 0xFF#8 false false 0x42#8 0x058001AC#32 = some (0xFFFFFF80#32, 0xFF#8, true, false) := by decide +kernel

theorem test_step_s8l :
    accept 0x00000000#32 0xFF#8 false false 0x43#8 0x057F80D6#32 = some (0xFFFFFF80#32, 0xFF#8, true, false) := by decide +kernel

theorem test_step_s8l_positive :
    accept 0x00000000#32 0xFF#8 false false 0x43#8 0x2AFF7F6D#32 = some (0x0000007F#32, 0xFF#8, true, false) := by decide +kernel

theorem test_step_rsx_st :
    accept 0x00000000#32 0xFF#8 false false 0x50#8 0x1601029A#32 = some (0x00000052#32, 0xFF#8, true, false) := by decide +kernel

theorem test_step_rsx_er :
    accept 0x00000000#32 0xFF#8 false false 0x50#8 0x17010215#32 = some (0x00000063#32, 0xFF#8, true, false) := by decide +kernel

theorem test_step_addr :
    accept 0x00000000#32 0xFF#8 false false 0x60#8 0x4112340C#32 = some (0x00000010#32, 0xFF#8, true, false) := by decide +kernel

theorem test_step_addr_bad_crc :
    accept 0x12345678#32 0x55#8 true false 0x60#8 0x7C000000#32 = some (0x0000001F#32, 0x55#8, false, false) := by decide +kernel

theorem test_step_rw :
    accept 0x00000000#32 0xFF#8 false false 0x61#8 0xFD7FFFB0#32 = some (0x00000001#32, 0xFF#8, true, false) := by decide +kernel

theorem test_step_rw_read :
    accept 0x00000000#32 0xFF#8 false false 0x61#8 0x4112340C#32 = some (0x00000000#32, 0xFF#8, true, false) := by decide +kernel

theorem test_step_onehot :
    accept 0x00000000#32 0xFF#8 false false 0x62#8 0x4112340C#32 = some (0x00010000#32, 0xFF#8, true, false) := by decide +kernel

theorem test_step_onehot_top :
    accept 0x12345678#32 0x55#8 true false 0x62#8 0x7C000000#32 = some (0x80000000#32, 0x55#8, false, false) := by decide +kernel

theorem test_step_facc :
    accept 0x00000000#32 0xFF#8 false false 0x70#8 0x000000D1#32 = some (0x84032179#32, 0xFF#8, false, false) := by decide +kernel

theorem test_step_facc_az_only :
    accept 0x00000000#32 0xFF#8 false false 0x70#8 0x00000111#32 = some (0x84042180#32, 0xFF#8, false, false) := by decide +kernel

theorem test_step_fgyu :
    accept 0x00000000#32 0xFF#8 false false 0x72#8 0x001A95FF#32 = some (0x880021A7#32, 0xFF#8, false, false) := by decide +kernel

theorem test_step_fgyu_ones :
    accept 0x00000000#32 0xFF#8 false false 0x72#8 0x00007E00#32 = some (0x88007737#32, 0xFF#8, false, false) := by decide +kernel

theorem test_step_fgyd :
    accept 0x00000000#32 0xFF#8 false false 0x73#8 0x000E1400#32 = some (0x8C43219F#32, 0xFF#8, false, false) := by decide +kernel

theorem test_step_fgyd_ry2_only :
    accept 0x00000000#32 0xFF#8 false false 0x73#8 0x000E9400#32 = some (0x8C53212B#32, 0xFF#8, false, false) := by decide +kernel

theorem test_step_crci :
    accept 0x00000000#32 0x12#8 false false 0x80#8 0x00000000#32 = some (0x00000000#32, 0xFF#8, false, false) := by decide +kernel

theorem test_step_crcb_one :
    accept 0x00000000#32 0xFF#8 false false 0x81#8 0x00000001#32 = some (0x00000000#32, 0xFE#8, false, false) := by decide +kernel

theorem test_step_crcb_zero :
    accept 0x00000000#32 0xFF#8 false false 0x81#8 0x00000002#32 = some (0x00000000#32, 0xE3#8, false, false) := by decide +kernel

theorem test_step_crcf :
    accept 0x00000000#32 0xA4#8 false false 0x82#8 0x00000000#32 = some (0x0000005B#32, 0xA4#8, false, false) := by decide +kernel

theorem test_step_crcr :
    accept 0x00000000#32 0xA4#8 false false 0x83#8 0x00000000#32 = some (0x000000A4#32, 0xA4#8, false, false) := by decide +kernel

/-- Reset wins over a command of the same cycle (60_exceptions.md R153). -/
theorem test_step_reset_wins :
    elements (step (machine 0x12345678#32 0x55#8 true true [⟨true, true, 0x10#8, 0x00390000#32⟩])) =
      some (0x00000000#32, 0xFF#8, false, false) := by decide

/-- With `cmd_valid` = 0 nothing happens, whatever is on `cmd` (30_encoding.md R61). -/
theorem test_step_not_valid :
    elements (step (machine 0x12345678#32 0x55#8 true false [⟨false, false, 0x71#8, 0xE4000067#32⟩])) =
      some (0x12345678#32, 0x55#8, true, false) := by decide

/-- withFetchWord makes the very next step from reset run the command. -/
theorem test_withFetchWord :
    elements (step (State.reset.withFetchWord 8 0x83)) = some (0x000000FF#32, 0xFF#8, false, false) := by decide

/-! ## CRC values (95_test_vectors.md 2.1) -/

theorem test_crc24_values :
    [0x000000#24, 0xFFFFFF#24, 0x800000#24, 0x000001#24, 0x123456#24, 0x2F8000#24].map crc24 =
      [0xF1#8, 0x7A#8, 0x31#8, 0xEC#8, 0x96#8, 0x8E#8] := by decide +kernel

theorem test_crcTable_values :
    [0x01#8, 0x10#8, 0x80#8, 0xFF#8].map crcTable = [0x1D#8, 0xCD#8, 0x26#8, 0xC4#8] := by decide +kernel

/-! ## What each check refuses -/

theorem test_ex_is_legal : Params.ex.wellFormed = true := by decide

/-- Constraint 1 of 43_filter_frames.md R132, kind by kind. -/
theorem test_refuses_facc_overlap : Params.wellFormed { Params.ex with offAy := 2 } = false := by decide
theorem test_refuses_fgyu_overlap : Params.wellFormed { Params.ex with offRx2 := 2 } = false := by decide
theorem test_refuses_fgyd_overlap : Params.wellFormed { Params.ex with offRy2 := 10 } = false := by decide

/-- Constraint 2 of 43_filter_frames.md R132, kind by kind; a nominal-range bit may be 1. -/
theorem test_refuses_facc_fixed : Params.wellFormed { Params.ex with fixFacc := 0x0040#16 } = false := by decide
theorem test_refuses_fgyu_fixed : Params.wellFormed { Params.ex with fixFgyu := 0x0001#16 } = false := by decide
theorem test_refuses_fgyd_fixed : Params.wellFormed { Params.ex with fixFgyd := 0x7000#16 } = false := by decide
theorem test_accepts_nominal_range : Params.wellFormed { Params.ex with fixFacc := 0x0888#16 } = true := by decide

/-- Constraint 3 of 43_filter_frames.md R132: slots that leave a gap, and slots with the reserved bit below the code. -/
theorem test_refuses_slot_gap : Params.wellFormed { Params.ex with offAz := 12 } = false := by decide
theorem test_accepts_bit_below : Params.wellFormed { Params.ex with offAx := 5, offAy := 9, offAz := 13 } = true := by decide

/-- A step of a block with an illegal set is refused by name. -/
theorem test_step_refuses_illegal :
    step { State.reset with params := { Params.ex with offRx2 := 2 } } = .refused .illegalParameters := by rfl

/-- 00_scope.md R7: `P_FCODE_MAP` is injective. -/
theorem test_refuses_fcode_clash : FCodeMap.wellFormed ⟨0#3, 1#3, 2#3, 3#3, 3#3⟩ = false := by decide
theorem test_accepts_fcode_map : FCodeMap.wellFormed ⟨0#3, 1#3, 2#3, 3#3, 4#3⟩ = true := by decide

/-- Source lines whose operands are not those of 30_encoding.md R69 and R70: one for each check. -/
theorem test_refuses_source_lines :
    [SourceLine.mk .nop false [0], ⟨.pack, false, [1, 2]⟩, ⟨.verify, false, [2 ^ 32]⟩, ⟨.crc, false, [2 ^ 32]⟩,
     ⟨.s16, false, [2 ^ 32]⟩, ⟨.u16, false, [2 ^ 32]⟩, ⟨.s8h, false, [2 ^ 32]⟩, ⟨.s8l, false, [2 ^ 32]⟩,
     ⟨.rsx, false, [2 ^ 32]⟩, ⟨.addr, false, [2 ^ 32]⟩, ⟨.rw, false, [2 ^ 32]⟩, ⟨.onehot, false, [2 ^ 32]⟩,
     ⟨.crcb, false, [2]⟩, ⟨.facc, false, [8, 0, 0]⟩, ⟨.facc, false, [0, 8, 0]⟩, ⟨.facc, false, [0, 0, 8]⟩,
     ⟨.fgyu, false, [8, 0]⟩, ⟨.fgyu, false, [0, 8]⟩, ⟨.fgyd, false, [8, 0, 0, 0]⟩, ⟨.fgyd, false, [0, 8, 0, 0]⟩,
     ⟨.fgyd, false, [0, 0, 8, 0]⟩, ⟨.fgyd, false, [0, 0, 0, 8]⟩, ⟨.pack, true, [2 ^ 32]⟩, ⟨.crcb, true, [2 ^ 32]⟩,
     ⟨.facc, true, [2 ^ 32]⟩, ⟨.fgyu, true, [2 ^ 32]⟩, ⟨.fgyd, true, [2 ^ 32]⟩, ⟨.crcser, false, [2 ^ 24]⟩,
     ⟨.verify, true, [0]⟩].all (fun l => !l.wellFormed) = true := by decide

/-! ## Text (30_encoding.md R69, R70; 95_test_vectors.md programs P1 and P4) -/

theorem test_assemble_lines :
    assemble "SETNORMAL            ; PACK 1, 0x19, 0x0000\nVERIFY 0xE4000067\n\nFACC 1, 2, 3\nCRCB #0x00000002".toList =
      some [⟨0x10#8, 0x00390000#32⟩, ⟨0x30#8, 0xE4000067#32⟩, ⟨0x70#8, 0x000000D1#32⟩, ⟨0x81#8, 0x00000002#32⟩] := by
  decide +kernel

theorem test_assemble_gyro :
    assemble "FGYU 1, 2\nFGYD 1, 2, 3, 4\nREAD 0x0A\nSETEOI".toList =
      some [⟨0x72#8, 0x00001400#32⟩, ⟨0x73#8, 0x000E1400#32⟩, ⟨0x10#8, 0x000A0000#32⟩, ⟨0x10#8, 0x00380002#32⟩] := by
  decide +kernel

theorem test_assemble_refuses : assemble "PACK 1, 0x19".toList = none ∧ assemble "HALT".toList = none := by decide +kernel

theorem test_render : renderEncoding ⟨0x10#8, 0x00390000#32⟩ = "0x10 : 0x00390000".toList := by decide +kernel

/-! ## The environment (70_reset_and_hazards.md R175, R177, R178, R181) -/

theorem test_overFetched_program_P3 :
    overFetched [0x01#5, 0x0A#5] 0x000000F1#32 = [0x040000F7#32, 0x280000CD#32, 0x000000F1#32] := by decide +kernel

theorem test_pair_program_P3 :
    pairResponses [0x040000F7#32, 0x280000CD#32, 0x000000F1#32] [0#32, 0x058001AC#32, 0x2AFF7F6D#32] =
      [(0x040000F7#32, 0x058001AC#32), (0x280000CD#32, 0x2AFF7F6D#32)] := by decide

theorem test_converge :
    converge (List.replicate 5 (0x15010216#32, 0x14010299#32)) = .residualStatusFailure ∧
    converge (List.replicate 6 (0x15010216#32, 0x14010299#32)) = .residualStatusFailure ∧
    converge [(0x14010299#32, 0x15010216#32), (0x15010216#32, 0x15010216#32)] = .ready 2 ∧
    converge [(0x14010299#32, 0x15010216#32)] = .unfinished := by decide

/-! ## Witnesses: for each statement with hypotheses, a state and operands that meet them all -/

/-- A machine with these inputs to come, from elements that are not the reset values. -/
def busy (inputs : List PortSample) : State := machine 0x12345678#32 0x55#8 true false inputs

theorem witness_ResetEdgeTakesEveryElementToItsResetValue :
      (busy [⟨true, true, 0x71#8, 0xFFFFFFFF#32⟩]).params.wellFormed = true ∧
      (busy [⟨true, true, 0x71#8, 0xFFFFFFFF#32⟩]).inputs = ⟨true, true, 0x71#8, 0xFFFFFFFF#32⟩ :: [] :=
  ⟨by decide, rfl⟩

theorem witness_EdgeWithoutCommandChangesNothing :
      (busy [⟨false, false, 0x10#8, 0#32⟩]).params.wellFormed = true ∧
      (busy [⟨false, false, 0x10#8, 0#32⟩]).inputs = ⟨false, false, 0x10#8, 0#32⟩ :: [] :=
  ⟨by decide, rfl⟩

theorem witness_EdgeWithNothingLinedUpIsIdle :
      (busy []).params.wellFormed = true ∧ (busy []).inputs = [] :=
  ⟨by decide, rfl⟩

theorem witness_StepRunsTheDecodedCommand :
      (busy [⟨false, true, 0x81#8, 1#32⟩]).params.wellFormed = true ∧
      (busy [⟨false, true, 0x81#8, 1#32⟩]).inputs = ⟨false, true, 0x81#8, 1#32⟩ :: [] ∧
      decode 0x81#8 1#32 = .command (.crcb true) :=
  ⟨by decide, rfl, by decide⟩

theorem witness_ReservedWordSetsErrAndNothingElse :
      (busy [⟨false, true, 0xFF#8, 1#32⟩]).params.wellFormed = true ∧
      (busy [⟨false, true, 0xFF#8, 1#32⟩]).inputs = ⟨false, true, 0xFF#8, 1#32⟩ :: [] ∧ reservedWord 0xFF#8 = true :=
  ⟨by decide, rfl, by decide⟩

theorem witness_ReservedWordsAreExactlyTheListedRanges :
      decode 0x01#8 0#32 = .reservedCommand 0x01#8 ∧ decode 0xFF#8 0#32 = .reservedCommand 0xFF#8 :=
  ⟨by decide, by decide⟩

theorem witness_CommandMapDecodesByTable :
      0x84#8 ∉ [0x00#8, 0x10#8, 0x20#8, 0x30#8, 0x40#8, 0x41#8, 0x42#8, 0x43#8, 0x50#8, 0x60#8, 0x61#8, 0x62#8, 0x70#8,
      0x72#8, 0x73#8, 0x80#8, 0x81#8, 0x82#8, 0x83#8] :=
  by decide

theorem witness_DecodeIgnoresBitsOutsideTheForm :
      (0xFFF90000#32 : Word) ≠ 0x00390000#32 ∧ (0xFFF90000#32 : Word) &&& operandMask 0x10#8 = 0x00390000#32 &&& operandMask 0x10#8 :=
  by decide

theorem witness_CommandIsSelectedByCmdAlone :
      decode 0x20#8 0xFFFFFFFF#32 = .command (.crc 0xFFFFFF#24) :=
  by decide

theorem witness_EncodeOfDecodeKeepsTheReadBits :
      decode 0x70#8 0xFFE000D1#32 = .command (.facc 1#3 2#3 3#3) :=
  by decide

theorem witness_SingleBitFlipChangesCrcByAFixedDelta :
      0 < 24 ∧ 23 < 24 ∧ 8 ≤ 8 ∧ 8 < 32 ∧ 8 ≤ 31 ∧ 31 < 32 ∧ crcMatches 0xE4000067#32 = true :=
  by decide +kernel

theorem witness_SerialEngineComputesTheParallelCrc :
      (busy ((crcserCommands 0xE00002#24).map PortSample.ofCommand ++ [])).params.wellFormed = true ∧
      (busy ((crcserCommands 0xE00002#24).map PortSample.ofCommand ++ [])).inputs =
        (crcserCommands 0xE00002#24).map PortSample.ofCommand ++ [] :=
  ⟨by decide, rfl⟩

theorem witness_OtherBitOrdersComputeAnotherFunction :
      (List.range 24).Perm (List.range 24) ∧ List.range 24 ≠ (List.range 24).reverse :=
  ⟨List.Perm.refl _, by decide⟩

theorem witness_NopChangesNothing :
      0x01 ≤ (0x01#8).toNat ∧ (0x01#8).toNat ≤ 0x0F ∧ 0x01 ≤ (0x0F#8).toNat ∧ (0x0F#8).toNat ≤ 0x0F :=
  by decide

theorem witness_CrcfReadsTheComplementOfAcc :
      ∃ t, exec .crcf (busy []) = .next t :=
  ⟨_, rfl⟩

theorem witness_PackedFramesVerifyAndNoFlippedOneDoes :
      0 < 32 ∧ 31 < 32 :=
  by decide

theorem witness_U16ZeroExtendsThePayload :
      ∃ t, exec (.u16 0x058001AC#32) (busy []) = .next t :=
  ⟨_, rfl⟩

theorem witness_RsxDecodesTheReturnStatus :
      ∃ t, exec (.rsx 0x2F80008E#32) (busy []) = .next t :=
  ⟨_, rfl⟩

theorem witness_AddrExtractsTheRegisterAddress :
      ∃ t, exec (.addr 0x7FFFFFBA#32) (busy []) = .next t :=
  ⟨_, rfl⟩

theorem witness_RwExtractsTheReadWriteBit :
      ∃ t, exec (.rw 0xE000025B#32) (busy []) = .next t :=
  ⟨_, rfl⟩

theorem witness_OnehotSelectsOneOf32Lines :
      (∃ t, exec (.onehot 0x7FFFFFBA#32) (busy []) = .next t) ∧ 0 < 32 ∧ 31 < 32 :=
  ⟨⟨_, rfl⟩, by decide⟩

theorem witness_FaccBuildsTheAccelerometerFrame :
      (∃ t, exec (.facc 0#3 0#3 0#3) (busy []) = .next t) ∧ (∃ t, exec (.facc 7#3 7#3 7#3) (busy []) = .next t) ∧
      8 ∈ (busy []).params.faccFields ∧ 0 < 3 ∧ 2 < 3 ∧ (busy []).params = Params.ex :=
  ⟨⟨_, rfl⟩, ⟨_, rfl⟩, by decide, by decide, by decide, rfl⟩

theorem witness_FgyuBuildsTheUnoGyroFrame :
      (busy []).params = Params.ex :=
  rfl

theorem witness_FgydBuildsTheDueGyroFrame :
      (∃ t, exec (.fgyd 7#3 7#3 7#3 7#3) (busy []) = .next t) ∧ 12 ∈ (busy []).params.fgydFields ∧ 0 < 3 ∧ 2 < 3 ∧
      (busy []).params = Params.ex :=
  ⟨⟨_, rfl⟩, by decide, by decide, by decide, rfl⟩

theorem witness_CrcMismatchNeverChangesTheDecode :
      (0x2AFF7F6D#32 : Word) ≠ 0x2AFF7F6C#32 ∧
      (0x2AFF7F6D#32 : Word).extractLsb 31 8 = (0x2AFF7F6C#32 : Word).extractLsb 31 8 :=
  by decide

theorem witness_BuiltFramesCarryStatusZeroAndPass :
      (Instr.fgyd 1#3 2#3 3#3 4#3).cmdWord ∈ [0x10#8, 0x70#8, 0x72#8, 0x73#8] :=
  by decide

theorem witness_ChangingOneFilterCodeChangesOnlyItsField :
      (busy []).params.wellFormed = true ∧ (0#3 : BitVec 3) ≠ 7#3 :=
  by decide

theorem witness_CrcByteCanStayWhenSeveralCodesChange :
      (busy []).params = Params.ex :=
  rfl

theorem witness_FilterCodesAndFixedBitsReadBack :
      (busy []).params.wellFormed = true ∧
      (3 < 16 ∧ ∀ o ∈ (busy []).params.faccFields, 3 < o.val ∨ o.val + 3 ≤ 3) ∧
      (15 < 16 ∧ ∀ o ∈ (busy []).params.fgyuFields, 15 < o.val ∨ o.val + 3 ≤ 15) ∧
      (15 < 16 ∧ ∀ o ∈ (busy []).params.fgydFields, 15 < o.val ∨ o.val + 3 ≤ 15) :=
  by decide

theorem witness_StepCompletesUnlessParametersAreIllegal :
      (busy []).params.wellFormed = true ∧
      ({ busy [] with params := { Params.ex with offRx2 := 2 } } : State).params.wellFormed = false :=
  by decide

theorem witness_SetErrStaysUntilReset :
      (machine 0#32 0xFF#8 false true [⟨false, true, 0x71#8, 0#32⟩]).errLatched = true ∧
      ∃ t, step (machine 0#32 0xFF#8 false true [⟨false, true, 0x71#8, 0#32⟩]) = .next t :=
  ⟨by decide, _, rfl⟩

theorem witness_CleanHostNeverSetsErr :
      (busy [⟨false, true, 0x83#8, 0#32⟩, ⟨true, true, 0x71#8, 0#32⟩]).clean = true ∧
      ∃ t, step (busy [⟨false, true, 0x83#8, 0#32⟩, ⟨true, true, 0x71#8, 0#32⟩]) = .next t :=
  ⟨by decide, _, rfl⟩

theorem witness_ResetStateIsClean :
      ∀ c ∈ [(⟨0x10#8, 0#32⟩ : Command), ⟨0x83#8, 0#32⟩], reservedWord c.cmd = false :=
  by decide

theorem witness_NoStepChangesTheParameters :
      ∃ t, step (busy [⟨true, false, 0#8, 0#32⟩]) = .next t :=
  ⟨_, rfl⟩

theorem witness_OnlyTheListedCommandsWriteEachElement :
      (busy [⟨false, true, 0x80#8, 0#32⟩]).inputs = ⟨false, true, 0x80#8, 0#32⟩ :: [] ∧
      ∃ t, step (busy [⟨false, true, 0x80#8, 0#32⟩]) = .next t ∧ t.acc ≠ (busy [⟨false, true, 0x80#8, 0#32⟩]).acc :=
  ⟨rfl, _, rfl, by decide⟩

theorem witness_RepeatingAFrameReadChangesNothing :
      readsFrame (.onehot 0xE4000067#32) = true :=
  rfl

theorem witness_PresentedCommandsRunInOrder :
      (busy (([Instr.crci, .crcb true, .crcf].map encode).map PortSample.ofCommand ++ [])).params.wellFormed = true ∧
      (busy (([Instr.crci, .crcb true, .crcf].map encode).map PortSample.ofCommand ++ [])).inputs =
        ([Instr.crci, .crcb true, .crcf].map encode).map PortSample.ofCommand ++ [] :=
  ⟨by decide, rfl⟩

theorem witness_FrameGoesOverTheWireMostSignificantFirst :
      0 < 32 ∧ 31 < 32 :=
  by decide

theorem witness_LinkAnswersComeOneExchangeLate :
      [0x040000F7#32, 0x280000CD#32] ≠ ([] : List Word) ∧ ChipRole.uno ≠ .due :=
  by decide

/-- The other clauses of OnlyTheListedCommandsWriteEachElement: RES, CRCOK and ERR do change, each by such a command. -/
theorem witness_OnlyTheListedCommandsWriteEachElement_others :
    accept 0x12345678#32 0x55#8 true false 0x30#8 0#32 = some (0x0000F100#32, 0x55#8, false, false) ∧
    accept 0x12345678#32 0x55#8 true false 0xFF#8 0#32 = some (0x12345678#32, 0x55#8, true, true) := by decide +kernel

end Sys2Proof.Tests
end

section
/-! PROOFS. The words the decoder defines, and what each command of the block writes and leaves unchanged (10_state.md R20, 30_encoding.md
R65, R66). -/

namespace Sys2Proof.Machine

/-- A word outside the ranges of 30_encoding.md R66 is one of the nineteen command words of R65. -/
theorem mem_definedWords_of_not_reserved {cmd : Byte} (h : reservedWord cmd = false) :
    cmd ∈ [0x00#8, 0x10#8, 0x20#8, 0x30#8, 0x40#8, 0x41#8, 0x42#8, 0x43#8, 0x50#8, 0x60#8, 0x61#8, 0x62#8, 0x70#8,
      0x72#8, 0x73#8, 0x80#8, 0x81#8, 0x82#8, 0x83#8] := by
  simp [reservedWord, BitVec.toNat_eq] at h ⊢
  omega

/-- What the decoder answers: a command under its own command word, or that very word as a reserved one. -/
theorem decode_cases (cmd : Byte) (a : Word) :
    (∃ i, decode cmd a = .command i ∧ cmd = i.cmdWord) ∨
    (decode cmd a = .reservedCommand cmd ∧ reservedWord cmd = true) := by
  unfold decode
  split
  case h_20 =>
    refine .inr ⟨rfl, Bool.eq_true_of_not_eq_false fun h => ?_⟩
    have hmem := mem_definedWords_of_not_reserved h
    simp_all
  all_goals exact .inl ⟨_, rfl, rfl⟩

theorem cmdWord_of_decode {cmd : Byte} {a : Word} {i : Instr} (h : decode cmd a = .command i) : cmd = i.cmdWord := by
  obtain ⟨j, hd, rfl⟩ | ⟨hd, -⟩ := decode_cases cmd a <;> simp_all

theorem reserved_of_decode {cmd c : Byte} {a : Word} (h : decode cmd a = .reservedCommand c) :
    c = cmd ∧ reservedWord cmd = true := by
  obtain ⟨i, hd, -⟩ | ⟨hd, hr⟩ := decode_cases cmd a <;> simp_all

/-- Every command completes (60_exceptions.md R152). -/
theorem exec_eq_after (i : Instr) (s : State) : exec i s = .next (s.after i) := by cases i <;> rfl

@[simp] theorem after_err (s : State) (i : Instr) : (s.after i).err = s.err := by cases i <;> rfl
@[simp] theorem after_params (s : State) (i : Instr) : (s.after i).params = s.params := by cases i <;> rfl
@[simp] theorem after_inputs (s : State) (i : Instr) : (s.after i).inputs = s.inputs := by cases i <;> rfl

theorem after_res_of_not_writesRes {i : Instr} (h : writesRes i = false) (s : State) : (s.after i).res = s.res := by
  cases i <;> cases h <;> rfl

theorem after_acc_of_not_writesAcc {i : Instr} (h : writesAcc i = false) (s : State) : (s.after i).acc = s.acc := by
  cases i <;> cases h <;> rfl

theorem after_crcok_of_not_readsFrame {i : Instr} (h : readsFrame i = false) (s : State) :
    (s.after i).crcok = s.crcok := by
  cases i <;> cases h <;> rfl

/-- The command words of the sixteen commands that write `RES` (10_state.md R20). -/
theorem cmdWord_mem_of_writesRes {i : Instr} (h : writesRes i = true) :
    i.cmdWord ∈ [0x10#8, 0x20#8, 0x30#8, 0x40#8, 0x41#8, 0x42#8, 0x43#8, 0x50#8, 0x60#8, 0x61#8, 0x62#8, 0x70#8, 0x72#8,
      0x73#8, 0x82#8, 0x83#8] := by
  cases i <;> simp_all [writesRes, Instr.cmdWord]

/-- The command words of the two commands that write `ACC` (10_state.md R20). -/
theorem cmdWord_mem_of_writesAcc {i : Instr} (h : writesAcc i = true) : i.cmdWord ∈ [0x80#8, 0x81#8] := by
  cases i <;> simp_all [writesAcc, Instr.cmdWord]

/-- The command words of VERIFY and the eight decoders, which write `CRCOK` (10_state.md R20). -/
theorem cmdWord_mem_of_readsFrame {i : Instr} (h : readsFrame i = true) :
    i.cmdWord ∈ [0x30#8, 0x40#8, 0x41#8, 0x42#8, 0x43#8, 0x50#8, 0x60#8, 0x61#8, 0x62#8] := by
  cases i <;> simp_all [readsFrame, Instr.cmdWord]

/-- A command run with other values in `RES`, `CRCOK` and `ERR` writes the same values, and keeps the ones it does not write. -/
theorem after_replaced_flags (s : State) (i : Instr) (r : Word) (c e : Bool) :
    State.after { s with res := r, crcok := c, err := e } i =
      { s.after i with
        res := if writesRes i then (s.after i).res else r
        crcok := if readsFrame i then (s.after i).crcok else c
        err := e } := by
  cases i <;> rfl

end Sys2Proof.Machine
end

section
/-! PROOFS. What a rising edge writes and leaves unchanged, from the cases of Laws/Ops.lean (10_state.md R20, R24, 60_exceptions.md R150,
70_reset_and_hazards.md R170). -/

namespace Sys2Proof.Machine

/-- An accepted word is the command word of a command, which runs, or it is reserved and raises ReservedCommand. -/
theorem acceptCommand_next_cases {cmd : Byte} {a : Word} {s t : State} (h : acceptCommand cmd a s = .next t) :
    (∃ i, decode cmd a = .command i ∧ cmd = i.cmdWord ∧ t = s.after i) ∨
    (reservedWord cmd = true ∧ t = raiseReservedCommand cmd s) := by
  obtain ⟨i, hd, hexec⟩ | ⟨c, hd, rfl⟩ := acceptCommand_cases h
  · exact .inl ⟨i, hd, cmdWord_of_decode hd, by simpa [exec_eq_after] using hexec.symm⟩
  · obtain ⟨rfl, hr⟩ := reserved_of_decode hd
    exact .inr ⟨hr, rfl⟩

theorem acceptCommand_params_inputs {cmd : Byte} {a : Word} {s t : State} (h : acceptCommand cmd a s = .next t) :
    t.params = s.params ∧ t.inputs = s.inputs := by
  obtain ⟨i, -, -, rfl⟩ | ⟨-, rfl⟩ := acceptCommand_next_cases h <;> simp

/-- No edge writes a parameter or the coming inputs, a reset edge included. -/
theorem clockEdge_params_inputs {p : PortSample} {s t : State} (h : clockEdge p s = .next t) :
    t.params = s.params ∧ t.inputs = s.inputs := by
  obtain ⟨-, rfl⟩ | ⟨-, -, ha⟩ | ⟨-, -, rfl⟩ := clockEdge_cases h
  · simp
  · exact acceptCommand_params_inputs ha
  · simp

/-- No command clears `ERR` (10_state.md R24). -/
theorem acceptCommand_keeps_err {cmd : Byte} {a : Word} {s t : State} (h : acceptCommand cmd a s = .next t)
    (he : s.err = true) : t.err = true := by
  obtain ⟨i, -, -, rfl⟩ | ⟨-, rfl⟩ := acceptCommand_next_cases h <;> simp [he]

/-- Only a reset edge clears `ERR` (10_state.md R24). -/
theorem clockEdge_keeps_err {p : PortSample} {s t : State} (h : clockEdge p s = .next t) (hp : p.rst = false)
    (he : s.err = true) : t.err = true := by
  obtain ⟨hr, -⟩ | ⟨-, -, ha⟩ | ⟨-, -, rfl⟩ := clockEdge_cases h
  · simp [hp] at hr
  · exact acceptCommand_keeps_err ha he
  · exact he

/-- At an edge without reset what `f` reads of the state changes only by an accepted command that writes it, where no other command
and no reserved word changes it. -/
theorem clockEdge_writer_of_ne {α : Type} (f : State → α) {writes : Instr → Bool}
    (hkeep : ∀ i s, writes i = false → f (State.after s i) = f s) (hraise : ∀ c s, f (raiseReservedCommand c s) = f s)
    {p : PortSample} {s t : State} (h : clockEdge p s = .next t) (hp : p.rst = false) (hne : f t ≠ f s) :
    p.cmdValid = true ∧ ∃ i, p.cmd = i.cmdWord ∧ writes i = true := by
  obtain ⟨hr, -⟩ | ⟨-, hv, ha⟩ | ⟨-, -, rfl⟩ := clockEdge_cases h
  · simp [hp] at hr
  · obtain ⟨i, -, hw, rfl⟩ | ⟨-, rfl⟩ := acceptCommand_next_cases ha
    · exact ⟨hv, i, hw, Bool.eq_true_of_not_eq_false fun hf => hne (hkeep i s hf)⟩
    · exact absurd (hraise p.cmd s) hne
  · exact absurd rfl hne

/-- At an edge without reset `ERR` changes only by an accepted reserved word, which sets it. -/
theorem clockEdge_reserved_of_err_ne {p : PortSample} {s t : State} (h : clockEdge p s = .next t) (hp : p.rst = false)
    (hne : t.err ≠ s.err) : p.cmdValid = true ∧ reservedWord p.cmd = true ∧ t.err = true := by
  obtain ⟨hr, -⟩ | ⟨-, hv, ha⟩ | ⟨-, -, rfl⟩ := clockEdge_cases h
  · simp [hp] at hr
  · obtain ⟨i, -, -, rfl⟩ | ⟨hres, rfl⟩ := acceptCommand_next_cases ha
    · exact absurd (after_err s i) hne
    · exact ⟨hv, hres, rfl⟩
  · exact absurd rfl hne

/-- Where the next sample is known, a step is the edge with that sample on the rest of the inputs. -/
theorem step_next_of_inputs {s t : State} {p : PortSample} {ps : List PortSample} (hin : s.inputs = p :: ps)
    (h : step s = .next t) : clockEdge p { s with inputs := ps } = .next t := by
  obtain ⟨-, hedge⟩ := step_cases h
  simpa [sampleInputs_cons hin] using hedge

/-- No edge to come is a reset, so the sampled one is none either: the idle sample past the list's end has `rst` = 0. -/
theorem sampleInputs_rst_of_noResetAhead {s : State} (h : s.noResetAhead = true) : (sampleInputs s).1.rst = false := by
  cases hin : s.inputs with
  | nil => simp [sampleInputs_nil hin]
  | cons p ps =>
    simp only [State.noResetAhead, hin, List.all_cons, Bool.and_eq_true] at h
    simpa [sampleInputs_cons hin] using h.1

theorem step_params_inputs {s t : State} (h : step s = .next t) : t.params = s.params ∧ t.inputs = s.inputs.drop 1 := by
  obtain ⟨-, hedge⟩ := step_cases h
  obtain ⟨hp, hi⟩ := clockEdge_params_inputs hedge
  obtain ⟨-, -, -, -, hp', hi'⟩ := sampleInputs_frame s
  exact ⟨hp.trans hp', hi.trans hi'⟩

theorem step_keeps_noResetAhead {s t : State} (h : step s = .next t) (hs : s.noResetAhead = true) :
    t.noResetAhead = true := by
  obtain ⟨-, hin⟩ := step_params_inputs h
  simp only [State.noResetAhead, List.all_eq_true, hin] at hs ⊢
  exact fun p hp => hs p (List.mem_of_mem_drop hp)

theorem step_keeps_err {s t : State} (h : step s = .next t) (hs : s.noResetAhead = true) (he : s.err = true) :
    t.err = true := by
  obtain ⟨-, hedge⟩ := step_cases h
  obtain ⟨-, -, -, herr, -, -⟩ := sampleInputs_frame s
  exact clockEdge_keeps_err hedge (sampleInputs_rst_of_noResetAhead hs) (herr.trans he)

theorem errLatched_iff (s : State) : s.errLatched = true ↔ s.err = true ∧ s.noResetAhead = true := by
  simp [State.errLatched]

/-- Presenting defined commands keeps every command to come a defined one. -/
theorem definedAhead_present {s : State} {cs : List Command} (hs : s.definedAhead = true)
    (hcs : ∀ c ∈ cs, reservedWord c.cmd = false) : (s.present cs).definedAhead = true := by
  simp only [State.definedAhead, present_inputs, List.all_append, Bool.and_eq_true] at hs ⊢
  exact ⟨hs, by simpa [List.all_map] using hcs⟩

theorem crc24_zero : crc24 0x000000#24 = 0xF1#8 := by decide +kernel

/-- The word 0x00000000 fails the check: it carries the CRC byte 0x00 (10_state.md R30). -/
theorem crcMatches_zero : crcMatches 0x00000000#32 = false := by
  have hspan : frameTop24 0x00000000#32 = 0x000000#24 := rfl
  simp [crcMatches, hspan, crc24_zero, frameCrc]

end Sys2Proof.Machine
end

section
/-! PROOFS. The link partner's answers along a sequence of exchanges (70_reset_and_hazards.md R175, 10_state.md R32). -/

namespace Sys2Proof.Machine

@[simp] theorem answersAlong_length (role : ChipRole) (requests : List Word) (l : LinkPartner) :
    (answersAlong role requests l).length = requests.length := by
  induction requests generalizing l with
  | nil => rfl
  | cons request requests ih => simp [answersAlong, ih]

/-- One-exchange latency: the frames received are the slot's first frame and then the answers, the last of which is left in
the slot. -/
theorem exchangeAll_received (role : ChipRole) (requests : List Word) (l : LinkPartner) :
    (exchangeAll role requests l).1 = (l.slot role :: answersAlong role requests l).dropLast := by
  induction requests generalizing l with
  | nil => rfl
  | cons request requests ih => simp [exchangeAll, answersAlong, ih]

theorem exchangeAll_slot_other {role other : ChipRole} (h : other ≠ role) (requests : List Word) (l : LinkPartner) :
    (exchangeAll role requests l).2.slot other = l.slot other := by
  induction requests generalizing l with
  | nil => rfl
  | cons request requests ih => exact (ih _).trans (exchange_slot_other h request l)

/-- Pairing with a list cut by one drops the last pair. -/
theorem zip_dropLast_of_length_eq {α β : Type} {xs : List α} {ys : List β} (h : xs.length = ys.length) :
    xs.zip ys.dropLast = (xs.zip ys).dropLast := by
  rw [List.zip_eq_zip_take_min]
  simp [List.dropLast_eq_take, List.zip, List.take_zipWith, List.take_take, h]

theorem pairResponses_exchangeAll (role : ChipRole) (requests : List Word) (l : LinkPartner) :
    pairResponses requests (exchangeAll role requests l).1 = (requests.zip (answersAlong role requests l)).dropLast := by
  rw [pairResponses, exchangeAll_received, List.drop_one, List.tail_dropLast, List.tail_cons]
  exact zip_dropLast_of_length_eq (answersAlong_length role requests l).symm

end Sys2Proof.Machine
end

section
/-! PROOFS. The statements about the state and its elements settled. -/

namespace Sys2Proof.Machine

/-- Settles O50: at an edge without reset every command keeps a set `ERR`, and the edges to come only get fewer. -/
theorem setErrStaysUntilReset : Obligations.SetErrStaysUntilReset := by
  intro s t hs h
  obtain ⟨he, hr⟩ := (errLatched_iff s).mp hs
  exact (errLatched_iff t).mpr ⟨step_keeps_err h hr he, step_keeps_noResetAhead h hr⟩

/-- Settles O53, by the cases of an edge. -/
theorem noStepChangesTheParameters : Obligations.NoStepChangesTheParameters :=
  fun _ _ h => step_params_inputs h

/-- Settles O54: a changed element means an accepted word, which is a writer's command word or, for `ERR`, a reserved one. -/
theorem onlyTheListedCommandsWriteEachElement : Obligations.OnlyTheListedCommandsWriteEachElement := by
  intro s t cmdValid cmd a ps hin h
  have hedge : clockEdge ⟨false, cmdValid, cmd, a⟩ { s with inputs := ps } = .next t := step_next_of_inputs hin h
  refine ⟨fun hne => ?_, fun hne => ?_, fun hne => ?_, fun hne => ?_⟩
  · obtain ⟨hv, i, rfl, hi⟩ := clockEdge_writer_of_ne State.res
      (fun _ s hf => after_res_of_not_writesRes hf s) raiseReservedCommand_res hedge rfl hne
    exact ⟨hv, cmdWord_mem_of_writesRes hi⟩
  · obtain ⟨hv, i, rfl, hi⟩ := clockEdge_writer_of_ne State.acc
      (fun _ s hf => after_acc_of_not_writesAcc hf s) raiseReservedCommand_acc hedge rfl hne
    exact ⟨hv, cmdWord_mem_of_writesAcc hi⟩
  · obtain ⟨hv, i, rfl, hi⟩ := clockEdge_writer_of_ne State.crcok
      (fun _ s hf => after_crcok_of_not_readsFrame hf s) raiseReservedCommand_crcok hedge rfl hne
    exact ⟨hv, cmdWord_mem_of_readsFrame hi⟩
  · exact clockEdge_reserved_of_err_ne hedge rfl hne

/-- Settles O55: the command leaves `s.after i`, and the same with the three elements replaced. -/
theorem noCommandReadsResCrcokOrErr : Obligations.NoCommandReadsResCrcokOrErr := by
  intro i s r c e
  exact ⟨s.after i, exec_eq_after i s, by rw [exec_eq_after, after_replaced_flags]⟩

/-- Settles O60: the clauses on what is received follow from the one-exchange latency, the last by induction. -/
theorem linkAnswersComeOneExchangeLate : Obligations.LinkAnswersComeOneExchangeLate := by
  intro role other requests l
  refine ⟨?_, fun hne => ?_, pairResponses_exchangeAll role requests l, fun h => exchangeAll_slot_other h requests l⟩
  · simp [exchangeAll_received]
  · cases requests with
    | nil => exact absurd rfl hne
    | cons request requests => simp [exchangeAll]

/-- Settles O1: VERIFY of the zero word records the check, which fails. -/
theorem resetStateHoldsTheSpecValues : Obligations.ResetStateHoldsTheSpecValues := by
  refine ⟨rfl, rfl, rfl, rfl, crc24_zero, fun s => ⟨_, rfl, ?_⟩⟩
  exact (readFrame_crcok _ _ s).trans crcMatches_zero

/-- Settles O52: nothing is lined up at reset, and what is presented is defined. -/
theorem resetStateIsClean : Obligations.ResetStateIsClean := by
  refine ⟨rfl, fun cs hcs => ?_⟩
  have hdefined : (State.reset.present cs).definedAhead = true := definedAhead_present rfl hcs
  have herr : State.reset.err = false := rfl
  simp [State.clean, hdefined, herr]

end Sys2Proof.Machine
end

section
/-! PROOFS. Decoding an encoded command gives the command back (30_encoding.md R62, R63, R69). -/

namespace Sys2Proof

/-- A field of a concatenation with nothing below it; `BitVec.extractLsb'_append_eq_of_le` goes past the fields that are. -/
theorem extractLsb'_append_lowest {m n start : Nat} {above : BitVec m} {field : BitVec n} (h : start = 0) :
    (above ++ field).extractLsb' start n = field := by
  subst h
  exact BitVec.extractLsb'_append_eq_right

/-- FRAME's operand is the whole word and NONE's is not read; the other forms' operands are their fields side by side, each read back
where the encoder put it. -/
theorem decode_encode (i : Instr) : decode (encode i).cmd (encode i).a = .command i := by
  cases i with
  | pack w r d =>
    have hw : (Instr.pack w r d).operandWord.getLsbD 21 = w := by
      simp only [Instr.operandWord, BitVec.getLsbD_append]
      simp
    rw [encode_cmd, encode_a, Instr.cmdWord, decode_pack, hw]
    simp (disch := decide) only [Instr.operandWord, BitVec.extractLsb'_append_eq_of_le, extractLsb'_append_lowest]
  | crc t =>
    have ht : (Instr.crc t).operandWord.extractLsb' 8 24 = t := BitVec.extractLsb'_append_eq_left
    rw [encode_cmd, encode_a, Instr.cmdWord, decode_crc, ht]
  | facc | fgyu | fgyd =>
    simp (disch := decide) only [encode_cmd, encode_a, Instr.cmdWord, decode_facc, decode_fgyu, decode_fgyd,
      Instr.operandWord, BitVec.extractLsb'_append_eq_of_le, extractLsb'_append_lowest]
  | crcb b =>
    have hb : (Instr.crcb b).operandWord.getLsbD 0 = b := by simp [Instr.operandWord]
    rw [encode_cmd, encode_a, Instr.cmdWord, decode_crcb, hb]
  | _ => rfl

end Sys2Proof
end

section
/-! PROOFS. A run over presented commands, one step for each (20_memory.md R51, 70_reset_and_hazards.md R173). -/

namespace Sys2Proof.Machine

/-- The block sees one sample at a time: what is lined up after it does not change what a command does (log 1). -/
theorem after_with_inputs (s : State) (i : Instr) (ps : List PortSample) :
    State.after { s with inputs := ps } i = { s.after i with inputs := ps } := by
  cases i <;> rfl

theorem afterAll_with_inputs (s : State) (is : List Instr) (ps : List PortSample) :
    State.afterAll { s with inputs := ps } is = { s.afterAll is with inputs := ps } := by
  induction is generalizing s with
  | nil => rfl
  | cons i is ih => rw [State.afterAll, after_with_inputs, ih, State.afterAll]

theorem acceptCommand_encode (i : Instr) (s : State) :
    acceptCommand (encode i).cmd (encode i).a s = .next (s.after i) := by
  rw [acceptCommand, decode_encode]
  exact exec_eq_after i s

theorem clockEdge_ofCommand_encode (i : Instr) (s : State) :
    clockEdge (PortSample.ofCommand (encode i)) s = .next (s.after i) :=
  acceptCommand_encode i s

/-- A step whose next sample presents an encoded command runs it and consumes the sample. -/
theorem step_presented {s : State} {i : Instr} {ps : List PortSample} (hp : s.params.wellFormed = true)
    (hin : s.inputs = PortSample.ofCommand (encode i) :: ps) :
    step s = .next { s.after i with inputs := ps } := by
  rw [step_of_wellFormed hp, sampleInputs_cons hin, clockEdge_ofCommand_encode, after_with_inputs]

end Sys2Proof.Machine
end

section
/-! PROOFS. What a frame-reading command writes (42_decode.md R110), and a frame's bits byte by byte (20_memory.md R44). -/

namespace Sys2Proof.Machine

/-- A frame-reading command writes a value and the check of one frame, both fixed by its operand and the same in every state
(20_memory.md R50, 42_decode.md R110). -/
theorem exec_eq_readFrame_of_readsFrame {i : Instr} (h : readsFrame i = true) :
    ∃ f v, ∀ s, exec i s = .next (readFrame f v s) := by
  cases i with
  | verify f | s16 f | u16 f | s8h f | s8l f | rsx f | addr f | rw f | onehot f => exact ⟨f, _, fun _ => rfl⟩
  | _ => cases h

theorem readFrame_idem (f v : Word) (s : State) : readFrame f v (readFrame f v s) = readFrame f v s := rfl

/-- The bits of the byte of a frame that starts at bit `lo`, most significant first, are the frame's own bits there. -/
theorem byteBits_extractLsb' (f : Word) (lo : Nat) :
    ((List.range 8).map fun k => (f.extractLsb' lo 8).getLsbD (7 - k)) =
      (List.range 8).map fun k => f.getLsbD (lo + (7 - k)) := by
  refine List.map_congr_left fun k _ => ?_
  have hk : 7 - k < 8 := by omega
  simp [hk]

/-- The four runs of eight bits, one below the other, are the 32 bits from bit 31 down. -/
theorem wireBytes_bits (f : Word) :
    (wireBytes f).flatMap (fun b => (List.range 8).map fun k => b.getLsbD (7 - k)) = wireBits f := by
  simp only [wireBytes, frameHdr, frameHi, frameLo, frameCrc, List.flatMap_cons, List.flatMap_nil, byteBits_extractLsb']
  rfl

end Sys2Proof.Machine
end

section
/-! PROOFS. The statements about the order of commands and of a frame's bits settled (20_memory.md). -/

namespace Sys2Proof.Machine

/-- Settles O56: such a command writes one fixed value and one fixed check, so writing them twice is writing them once. -/
theorem repeatingAFrameReadChangesNothing : Obligations.RepeatingAFrameReadChangesNothing := by
  intro i s u h
  obtain ⟨f, v, hexec⟩ := exec_eq_readFrame_of_readsFrame h
  refine ⟨readFrame f v s, readFrame f v u, hexec s, ?_, hexec u, ?_, ?_⟩
  · rw [hexec, readFrame_idem]
  · rw [readFrame_res, readFrame_res]
  · rw [readFrame_crcok, readFrame_crcok]

/-- Settles O57, by induction on the commands: each step runs the command presented first and leaves the others lined up. -/
theorem presentedCommandsRunInOrder : Obligations.PresentedCommandsRunInOrder := by
  intro is
  induction is with
  | nil =>
    rintro s ps - rfl
    rfl
  | cons i is ih =>
    intro s ps hp hin
    have hstep := step_presented (ps := (is.map encode).map PortSample.ofCommand ++ ps) hp hin
    rw [List.length_cons, runSteps_succ _ hstep, ih _ ps (by rwa [after_params]) rfl, afterAll_with_inputs, State.afterAll]

/-- Settles O58: the four bytes lie one below the other, so their bits in turn are the frame's from bit 31 down. -/
theorem frameGoesOverTheWireMostSignificantFirst : Obligations.FrameGoesOverTheWireMostSignificantFirst := by
  intro f
  refine ⟨by simp [wireBits], fun k hk => ?_, rfl, wireBytes_bits f⟩
  simp [wireBits, hk]

end Sys2Proof.Machine
end

section
/-! PROOFS. The decoder and the encoder are inverse on the bits a form reads, and the reserved words are those the decoder rejects
(30_encoding.md R62, R63, R65 to R67). -/

namespace Sys2Proof.Machine

@[simp] theorem reservedWord_cmdWord (i : Instr) : reservedWord i.cmdWord = false := by cases i <;> rfl

/-- The two ways of giving the reserved words agree, whatever the operand: the decoder's last arm and the ranges of R66. -/
theorem decode_eq_reserved_iff (cmd : Byte) (a : Word) :
    decode cmd a = .reservedCommand cmd ↔ reservedWord cmd = true := by
  refine ⟨fun h => (reserved_of_decode h).2, fun h => ?_⟩
  obtain ⟨i, -, rfl⟩ | ⟨hd, -⟩ := decode_cases cmd a
  · simp at h
  · exact hd

theorem exists_decode_cmdWord (i : Instr) (a : Word) : ∃ j, decode i.cmdWord a = .command j := by
  obtain ⟨j, hd, -⟩ | ⟨-, hr⟩ := decode_cases i.cmdWord a
  · exact ⟨j, hd⟩
  · simp at hr

/-- The forms without operand read nothing and FRAME reads the whole word; the fields of the others are put back where they were
read, which is seen bit by bit. -/
theorem operandWord_of_decode {cmd : Byte} {a : Word} {i : Instr} (h : decode cmd a = .command i) :
    i.operandWord = a &&& operandMask cmd := by
  obtain rfl := cmdWord_of_decode h
  cases i with
  | nop | crci | crcf | crcr => exact BitVec.and_zero.symm
  | verify f | s16 f | u16 f | s8h f | s8l f | rsx f | addr f | rw f | onehot f =>
    cases h
    exact BitVec.and_allOnes.symm
  | pack | crc | facc | fgyu | fgyd | crcb =>
    cases h
    refine BitVec.eq_of_getLsbD_eq fun k hk => ?_
    simp only [Instr.operandWord, Instr.cmdWord, operandMask, BitVec.getLsbD_and, BitVec.getLsbD_append]
    interval_cases k <;> simp

theorem encode_of_decode {cmd : Byte} {a : Word} {i : Instr} (h : decode cmd a = .command i) :
    encode i = ⟨cmd, a &&& operandMask cmd⟩ := by
  obtain rfl := cmdWord_of_decode h
  rw [encode, operandWord_of_decode h]

/-- Clearing the bits outside the form gives what the encoder writes for the decoded command, and that decodes to it again. -/
theorem decode_and_operandMask (cmd : Byte) (a : Word) : decode cmd (a &&& operandMask cmd) = decode cmd a := by
  obtain ⟨i, hd, -⟩ | ⟨hd, hr⟩ := decode_cases cmd a
  · have hback := decode_encode i
    rw [encode_of_decode hd] at hback
    exact hback.trans hd.symm
  · exact ((decode_eq_reserved_iff cmd _).mpr hr).trans hd.symm

theorem acceptCommand_of_decode {cmd : Byte} {a : Word} {i : Instr} (h : decode cmd a = .command i) (s : State) :
    acceptCommand cmd a s = exec i s := by
  simp [acceptCommand, h]

theorem acceptCommand_of_reserved {cmd c : Byte} {a : Word} (h : decode cmd a = .reservedCommand c) (s : State) :
    acceptCommand cmd a s = .next (raiseReservedCommand c s) := by
  simp [acceptCommand, h]

end Sys2Proof.Machine
end

section
/-! PROOFS. The commands of CRCSER run one after another are the parallel CRC (30_encoding.md R70, 40_build_and_crc.md R84 to R86, R88). -/

namespace Sys2Proof.Machine

/-- CRCB `t[n - 1]` down to CRCB `t[0]`: the commands whose encodings `crcbCommands` lists (30_encoding.md R70). -/
def crcbInstrs (t : BitVec 24) (n : Nat) : List Instr := (List.range n).reverse.map fun k => .crcb (t.getLsbD k)

/-- The 26 commands of `CRCSER t` (30_encoding.md R70). -/
def crcserInstrs (t : BitVec 24) : List Instr := .crci :: (crcbInstrs t 24 ++ [.crcf])

theorem crcbInstrs_succ (t : BitVec 24) (n : Nat) : crcbInstrs t (n + 1) = .crcb (t.getLsbD n) :: crcbInstrs t n := by
  simp [crcbInstrs, List.range_succ]

@[simp] theorem crcserInstrs_length (t : BitVec 24) : (crcserInstrs t).length = 26 := by
  simp [crcserInstrs, crcbInstrs]

theorem crcbCommands_eq_map_encode (t : BitVec 24) (n : Nat) : crcbCommands t n = (crcbInstrs t n).map encode := by
  induction n with
  | zero => rfl
  | succ n ih => rw [crcbCommands, crcbInstrs_succ, List.map_cons, ih]; rfl

theorem crcserCommands_eq_map_encode (t : BitVec 24) : crcserCommands t = (crcserInstrs t).map encode := by
  simp only [crcserCommands, crcserInstrs, crcbCommands_eq_map_encode, List.map_cons, List.map_append, List.map_nil]
  rfl

/-- The line `CRCB b`, its operand the bit as a number (30_encoding.md R69). -/
theorem crcbLine_commands (b : Bool) : SourceLine.commands ⟨.crcb, false, [b.toNat]⟩ = [crcbCommand b] := by
  cases b <;> rfl

theorem afterAll_append (s : State) (is js : List Instr) : s.afterAll (is ++ js) = (s.afterAll is).afterAll js := by
  induction is generalizing s with
  | nil => rfl
  | cons i is ih => exact ih (s.after i)

/-- Each CRCB is one step of the fold of R81 on `ACC`. -/
theorem afterAll_crcbInstrs (s : State) (t : BitVec 24) (n : Nat) :
    s.afterAll (crcbInstrs t n) = { s with acc := crcFold t n s.acc } := by
  induction n generalizing s with
  | zero => rfl
  | succ n ih => rw [crcbInstrs_succ, State.afterAll, ih]; rfl

/-- CRCI loads the seed, the CRCBs fold the span into it, CRCF reads the complement and leaves `ACC` as it is (R84 to R86). -/
theorem afterAll_crcserInstrs (s : State) (t : BitVec 24) :
    s.afterAll (crcserInstrs t) = { s with res := (crc24 t).zeroExtend 32, acc := ~~~ crc24 t } := by
  rw [crcserInstrs, State.afterAll, afterAll_append, afterAll_crcbInstrs, crc24, BitVec.not_not]
  rfl

end Sys2Proof.Machine
end

section
/-! PROOFS. The fields of a built frame, and the commands that build one (40_build_and_crc.md R82, R89; 43_filter_frames.md R133). -/

namespace Sys2Proof.Machine

/-- A frame built with its CRC passes the check (40_build_and_crc.md R89). -/
@[simp] theorem crcMatches_withCrc (t : BitVec 24) : crcMatches (withCrc t) = true := by simp [crcMatches]

@[simp] theorem frameRw_buildFrame (w : Bool) (r : BitVec 5) (d : BitVec 16) : frameRw (buildFrame w r d) = w := by
  simp only [frameRw, buildFrame, requestSpan, withCrc_getLsbD, BitVec.getLsbD_append]
  simp

@[simp] theorem frameAddr_buildFrame (w : Bool) (r : BitVec 5) (d : BitVec 16) : frameAddr (buildFrame w r d) = r := by
  simp (disch := decide) only [frameAddr, buildFrame, withCrc, requestSpan, BitVec.extractLsb'_append_eq_of_le,
    extractLsb'_append_lowest]

@[simp] theorem frameRs_buildFrame (w : Bool) (r : BitVec 5) (d : BitVec 16) : frameRs (buildFrame w r d) = 0b00#2 := by
  simp (disch := decide) only [frameRs, buildFrame, withCrc, requestSpan, BitVec.extractLsb'_append_eq_of_le,
    extractLsb'_append_lowest]

/-- The four commands that build a frame leave it in `RES`, the filter packers as PACK does with the write bit (40_build_and_crc.md
R89, 43_filter_frames.md R133). -/
theorem after_res_of_builder {i : Instr} (h : i.cmdWord ∈ [0x10#8, 0x70#8, 0x72#8, 0x73#8]) (s : State) :
    ∃ w r d, (s.after i).res = buildFrame w r d := by
  cases i with
  | pack | facc | fgyu | fgyd => exact ⟨_, _, _, rfl⟩
  | _ => simp [Instr.cmdWord] at h

theorem buildFrame_setNormal : buildFrame true 0x19#5 0x0000#16 = 0xE4000067#32 := by decide +kernel

theorem buildFrame_setEoi : buildFrame true 0x18#5 0x0002#16 = 0xE000025B#32 := by decide +kernel

end Sys2Proof.Machine
end

section
/-! PROOFS. The statements about the command words and operands settled (30_encoding.md). -/

namespace Sys2Proof.Machine

/-- Settles O11, by the forms of the nineteen commands. -/
theorem decodeOfEncodeIsTheCommand : Obligations.DecodeOfEncodeIsTheCommand := decode_encode

/-- Settles O7: the ranges are those of `reservedWord`, and a reserved word only raises ReservedCommand. -/
theorem reservedWordsAreExactlyTheListedRanges : Obligations.ReservedWordsAreExactlyTheListedRanges := by
  refine ⟨fun cmd a => ?_, by decide +kernel, fun cmd a s h => acceptCommand_of_reserved h s⟩
  rw [decode_eq_reserved_iff]
  simp [reservedWord, or_assoc]

/-- Settles O9: decoding depends on the operand through the bits of the form alone. -/
theorem decodeIgnoresBitsOutsideTheForm : Obligations.DecodeIgnoresBitsOutsideTheForm := by
  intro cmd a a' h
  have hdec : decode cmd a = decode cmd a' := by
    rw [← decode_and_operandMask cmd a, h, decode_and_operandMask]
  exact ⟨hdec, fun s => by rw [acceptCommand, acceptCommand, hdec]⟩

/-- Settles O10: a decoded command's own word is the one presented, and that word is defined with every operand. -/
theorem commandIsSelectedByCmdAlone : Obligations.CommandIsSelectedByCmdAlone := by
  refine ⟨fun cmd a i h => (cmdWord_of_decode h).symm, fun cmd a a' i h => ?_⟩
  obtain rfl := cmdWord_of_decode h
  obtain ⟨j, hj⟩ := exists_decode_cmdWord i a'
  exact ⟨j, hj, (cmdWord_of_decode hj).symm⟩

/-- Settles O12: the word is the command's own, and the fields go back where they were read. -/
theorem encodeOfDecodeKeepsTheReadBits : Obligations.EncodeOfDecodeKeepsTheReadBits :=
  fun _ _ _ h => encode_of_decode h

/-- Settles O18: the samples present the encodings of 26 commands, which run in order (O57) and leave the parallel CRC. -/
theorem serialEngineComputesTheParallelCrc : Obligations.SerialEngineComputesTheParallelCrc := by
  refine ⟨fun s t ps hp hin => ?_, fun s a => rfl⟩
  rw [crcserCommands_eq_map_encode] at hin
  have hrun := presentedCommandsRunInOrder (crcserInstrs t) s ps hp hin
  rwa [crcserInstrs_length, afterAll_crcserInstrs] at hrun

/-- Settles O43: each of the four commands leaves a frame `buildFrame` gives, whose fields and check are known. -/
theorem builtFramesCarryStatusZeroAndPass : Obligations.BuiltFramesCarryStatusZeroAndPass := by
  refine fun s u => ⟨fun i hi => ⟨s.after i, exec_eq_after i s, ?_⟩, fun x y z => ⟨_, rfl, ?_⟩, fun x y => ⟨_, rfl, ?_⟩,
    fun x y z w => ⟨_, rfl, ?_⟩⟩
  · obtain ⟨w, r, d, hres⟩ := after_res_of_builder hi s
    rw [hres]
    exact ⟨frameRs_buildFrame w r d, _, rfl, crcMatches_withCrc _⟩
  all_goals exact ⟨frameRw_buildFrame true _ _, frameAddr_buildFrame true _ _⟩

/-- Settles O3: the sampled edge is neither a reset nor a command. -/
theorem edgeWithoutCommandChangesNothing : Obligations.EdgeWithoutCommandChangesNothing := by
  intro s cmd a ps hp hin
  rw [step_of_wellFormed hp, sampleInputs_cons hin]
  rfl

/-- Settles O5: such an edge accepts the word presented. -/
theorem stepRunsTheDecodedCommand : Obligations.StepRunsTheDecodedCommand := by
  intro s cmd a ps i hp hin hd
  rw [step_of_wellFormed hp, sampleInputs_cons hin]
  exact acceptCommand_of_decode hd _

/-- Settles O8: the nineteen rows are the decoder's arms; a word that is none of them is in the ranges of R66. -/
theorem commandMapDecodesByTable : Obligations.CommandMapDecodesByTable := by
  refine ⟨fun a => ?_, fun cmd a h => (decode_eq_reserved_iff cmd a).mpr (Bool.eq_true_of_not_eq_false fun hr => ?_)⟩
  · exact ⟨decode_nop a, decode_pack a, decode_crc a, decode_verify a, decode_s16 a, decode_u16 a, decode_s8h a,
      decode_s8l a, decode_rsx a, decode_addr a, decode_rw a, decode_onehot a, decode_facc a, decode_fgyu a,
      decode_fgyd a, decode_crci a, decode_crcb a, decode_crcf a, decode_crcr a⟩
  · exact h (mem_definedWords_of_not_reserved hr)

/-- Settles O13: the words written out are the encoder's, and 0x71 is in a range of R66. -/
theorem wordsWrittenFromTheTableDecode : Obligations.WordsWrittenFromTheTableDecode :=
  ⟨decode_encode (.pack true 0x19#5 0x0000#16), decode_encode (.facc 1#3 2#3 3#3), decode_encode (.fgyu 1#3 2#3),
    decode_encode (.fgyd 1#3 2#3 3#3 4#3), decode_encode (.crcb true), decode_encode (.verify 0xE4000067#32),
    (decode_eq_reserved_iff 0x71#8 0x000000D1#32).mpr rfl⟩

/-- Settles O59: the packed frames are those of PACK's encodings, and CRCSER's text expands to one CRCB line for each bit. -/
theorem pseudoInstructionsExpandAsTabulated : Obligations.PseudoInstructionsExpandAsTabulated := by
  refine ⟨fun _ _ => rfl, fun _ => rfl, rfl, rfl, fun s c hc => ?_, fun s c hc => ?_, fun t => ?_, fun t => ?_⟩
  · obtain rfl := List.mem_singleton.mp hc
    rw [← buildFrame_setNormal]
    exact acceptCommand_encode (.pack true 0x19#5 0x0000#16) s
  · obtain rfl := List.mem_singleton.mp hc
    rw [← buildFrame_setEoi]
    exact acceptCommand_encode (.pack true 0x18#5 0x0002#16) s
  · simp only [crcbLine_commands]
    rfl
  · exact (congrArg List.length (crcserCommands_eq_map_encode _)).trans (by simp)

end Sys2Proof.Machine
end

section
/-! PROOFS. The CRC step and the fold of a span's bits in any order, linear over GF(2) (40_build_and_crc.md R80, R81, R88). -/

namespace Sys2Proof.Machine

/-- The feedback constant, XORed in or not, is linear in the bit that decides it. -/
theorem feedback_xor (x y : Bool) :
    (bif x ^^ y then 0x1D#8 else 0x00#8) = (bif x then 0x1D#8 else 0x00#8) ^^^ (bif y then 0x1D#8 else 0x00#8) := by
  cases x <;> cases y <;> rfl

theorem crc8Step_xor (b c : Bool) (s t : Byte) : crc8Step (b ^^ c) (s ^^^ t) = crc8Step b s ^^^ crc8Step c t := by
  have hbit : ((s ^^^ t).getLsbD 7 ^^ (b ^^ c)) = ((s.getLsbD 7 ^^ b) ^^ (t.getLsbD 7 ^^ c)) := by
    rw [BitVec.getLsbD_xor, Bool.xor_assoc, Bool.xor_assoc, Bool.xor_left_comm b]
  rw [crc8Step_eq, crc8Step_eq, crc8Step_eq, hbit, feedback_xor, BitVec.shiftLeft_xor_distrib]
  ac_rfl

/-- Only the XOR of the input bit and the top bit decides, so a bit XORed into the state's top folds as an input bit does. -/
theorem crc8Step_false_xor (s v : Byte) : crc8Step false (s ^^^ v) = crc8Step (v.getLsbD 7) s ^^^ (v <<< 1) := by
  rw [crc8Step_eq, crc8Step_eq, BitVec.getLsbD_xor, Bool.xor_false, BitVec.shiftLeft_xor_distrib]
  ac_rfl

@[simp] theorem crc8Step_false_zero : crc8Step false 0x00#8 = 0x00#8 := rfl
@[simp] theorem crc8Step_true_zero : crc8Step true 0x00#8 = 0x1D#8 := rfl
@[simp] theorem crc8Step_true_top : crc8Step true 0x80#8 = 0x00#8 := rfl
@[simp] theorem crc8Step_true_ones : crc8Step true 0xFF#8 = 0xFE#8 := rfl

/-- The bits of `v` at the positions of `order`, in turn, folded into a state (40_build_and_crc.md R81, R88). -/
def foldBits {w : Nat} (v : BitVec w) (order : List Nat) (s : Byte) : Byte :=
  order.foldl (fun x i => crc8Step (v.getLsbD i) x) s

@[simp] theorem foldBits_nil {w : Nat} (v : BitVec w) (s : Byte) : foldBits v [] s = s := rfl

theorem foldBits_cons {w : Nat} (v : BitVec w) (i : Nat) (order : List Nat) (s : Byte) :
    foldBits v (i :: order) s = foldBits v order (crc8Step (v.getLsbD i) s) := rfl

/-- The positions `n - 1` down to 0: the order of R81. -/
def descending (n : Nat) : List Nat := (List.range n).reverse

theorem descending_succ (n : Nat) : descending (n + 1) = n :: descending n := by
  simp [descending, List.range_succ]

@[simp] theorem length_descending (n : Nat) : (descending n).length = n := by simp [descending]

theorem getElem_descending {n p : Nat} (hp : p < (descending n).length) : (descending n)[p] = n - 1 - p := by
  simp [descending]

theorem nodup_descending (n : Nat) : (descending n).Nodup := List.nodup_reverse.mpr List.nodup_range

theorem crcFold_eq_foldBits (t : BitVec 24) (n : Nat) (s : Byte) : crcFold t n s = foldBits t (descending n) s := by
  induction n generalizing s with
  | zero => rfl
  | succ n ih => rw [crcFold_succ, ih, descending_succ, foldBits_cons]

theorem crc24_eq_foldBits (t : BitVec 24) : crc24 t = ~~~ foldBits t (descending 24) 0xFF#8 := by
  rw [crc24, crcFold_eq_foldBits]
  rfl

theorem foldBits_xor {w : Nat} (t u : BitVec w) (order : List Nat) (s r : Byte) :
    foldBits (t ^^^ u) order (s ^^^ r) = foldBits t order s ^^^ foldBits u order r := by
  induction order generalizing s r with
  | nil => rfl
  | cons i is ih => rw [foldBits_cons, BitVec.getLsbD_xor, crc8Step_xor, ih, foldBits_cons, foldBits_cons]

/-- Folding differs from folding all-zero bits by what the bits alone give. -/
theorem foldBits_seed {w : Nat} (v : BitVec w) (order : List Nat) (s : Byte) :
    foldBits v order s = foldBits (0#w) order s ^^^ foldBits v order 0x00#8 := by
  rw [← foldBits_xor, BitVec.zero_xor, BitVec.xor_zero]

/-- Two spans' CRCs differ by the fold of the spans' difference from the zero state, whatever the spans
(40_build_and_crc.md R91). -/
theorem crc24_xor (t u : BitVec 24) : crc24 (t ^^^ u) = crc24 t ^^^ foldBits u (descending 24) 0x00#8 := by
  have hfold := foldBits_xor t u (descending 24) 0xFF#8 0x00#8
  rw [BitVec.xor_zero] at hfold
  rw [crc24_eq_foldBits, crc24_eq_foldBits, hfold, BitVec.not_xor_left]

end Sys2Proof.Machine
end

section
/-! PROOFS. What a single 1 bit leaves in the CRC: it depends on how many bits are folded after it, and tells that number
(40_build_and_crc.md R88, R91). -/

namespace Sys2Proof.Machine

/-- `delta_k` (40_build_and_crc.md R91): what a 1 bit leaves in the zero state when `k` bits are folded after it. -/
def bitDelta (k : Nat) : Byte := (crc8Step false)^[k] 0x1D#8

/-- The 24 values R91 lists. -/
theorem map_bitDelta_range : (List.range 24).map bitDelta =
    [0x1D#8, 0x3A#8, 0x74#8, 0xE8#8, 0xCD#8, 0x87#8, 0x13#8, 0x26#8, 0x4C#8, 0x98#8, 0x2D#8, 0x5A#8,
      0xB4#8, 0x75#8, 0xEA#8, 0xC9#8, 0x8F#8, 0x03#8, 0x06#8, 0x0C#8, 0x18#8, 0x30#8, 0x60#8, 0xC0#8] := by
  decide +kernel

theorem bitDelta_injOn {j k : Nat} (hj : j < 24) (hk : k < 24) (h : bitDelta j = bitDelta k) : j = k := by
  have hnodup : ((List.range 24).map bitDelta).Nodup := by
    rw [map_bitDelta_range]
    decide
  exact List.inj_on_of_nodup_map hnodup (List.mem_range.mpr hj) (List.mem_range.mpr hk) h

theorem bitDelta_ne_zero {k : Nat} (hk : k < 24) : bitDelta k ≠ 0x00#8 := by
  have hnonzero : ∀ d ∈ (List.range 24).map bitDelta, d ≠ 0x00#8 := by
    rw [map_bitDelta_range]
    decide
  exact hnonzero _ (List.mem_map_of_mem (List.mem_range.mpr hk))

theorem foldBits_of_zero_bits {w : Nat} {v : BitVec w} {order : List Nat} (h : ∀ i ∈ order, v.getLsbD i = false)
    (s : Byte) : foldBits v order s = (crc8Step false)^[order.length] s := by
  induction order generalizing s with
  | nil => rfl
  | cons i is ih =>
    obtain ⟨hi, his⟩ := List.forall_mem_cons.mp h
    rw [foldBits_cons, hi, ih his, List.length_cons, Function.iterate_succ_apply]

/-- Whatever the order, a single 1 bit leaves the delta of the number of positions that come after its own. -/
theorem foldBits_twoPow {order : List Nat} (hnodup : order.Nodup) {p : Nat} (hp : p < order.length) (hlt : order[p] < 24) :
    foldBits (BitVec.twoPow 24 order[p]) order 0x00#8 = bitDelta (order.length - 1 - p) := by
  induction order generalizing p with
  | nil => simp at hp
  | cons i is ih =>
    obtain ⟨hi, his⟩ := List.nodup_cons.mp hnodup
    rw [foldBits_cons]
    cases p with
    | zero =>
      have hzero : ∀ j ∈ is, (BitVec.twoPow 24 i).getLsbD j = false := by
        intro j hj
        have hne : i ≠ j := fun h => hi (h ▸ hj)
        simp [BitVec.getLsbD_twoPow, hne]
      have hone : (BitVec.twoPow 24 i).getLsbD i = true := by simpa [BitVec.getLsbD_twoPow] using hlt
      simp [hone, foldBits_of_zero_bits hzero, bitDelta]
    | succ p =>
      have hp' : p < is.length := by simpa using hp
      have hne : is[p] ≠ i := fun h => hi (h ▸ List.getElem_mem hp')
      have hlen : is.length - (p + 1) = is.length - 1 - p := by omega
      simp [BitVec.getLsbD_twoPow, hne, ih his hp' hlt, hlen]

theorem foldBits_twoPow_descending {k : Nat} (hk : k < 24) :
    foldBits (BitVec.twoPow 24 k) (descending 24) 0x00#8 = bitDelta k := by
  have hp : 23 - k < (descending 24).length := by rw [length_descending]; omega
  have hafter : 24 - 1 - (23 - k) = k := by omega
  have hpos : (descending 24)[23 - k] = k := (getElem_descending hp).trans hafter
  have hfold := foldBits_twoPow (nodup_descending 24) hp (by omega)
  rwa [hpos, length_descending, hafter] at hfold

theorem crc24_flip (t : BitVec 24) {k : Nat} (hk : k < 24) : crc24 (t ^^^ BitVec.twoPow 24 k) = crc24 t ^^^ bitDelta k := by
  rw [crc24_xor, foldBits_twoPow_descending hk]

/-- An order whose folds from some state all agree with those of R81 has every position where R81 has it: the delta its bit leaves
tells how many positions come after it. -/
theorem eq_descending_of_foldBits_eq {order : List Nat} (hperm : order.Perm (List.range 24)) {s : Byte}
    (h : ∀ t : BitVec 24, foldBits t order s = foldBits t (descending 24) s) : order = descending 24 := by
  have hlen : order.length = 24 := by simpa using hperm.length_eq
  have hnodup : order.Nodup := hperm.nodup_iff.mpr List.nodup_range
  have hzero : ∀ t : BitVec 24, foldBits t order 0x00#8 = foldBits t (descending 24) 0x00#8 := by
    intro t
    have ht := h t
    rwa [foldBits_seed, foldBits_seed t (descending 24), h 0#24, BitVec.xor_right_inj] at ht
  refine List.ext_getElem (hlen.trans (length_descending 24).symm) fun p hp hp' => ?_
  have hlt : order[p] < 24 := List.mem_range.mp (hperm.mem_iff.mp (List.getElem_mem hp))
  have hdelta : bitDelta (order.length - 1 - p) = bitDelta order[p] :=
    (foldBits_twoPow hnodup hp hlt).symm.trans ((hzero _).trans (foldBits_twoPow_descending hlt))
  have hafter : order.length - 1 - p = order[p] := bitDelta_injOn (by omega) hlt hdelta
  rw [getElem_descending hp', ← hafter, hlen]

end Sys2Proof.Machine
end

section
/-! PROOFS. The CRC a byte at a time (95_test_vectors.md section 2.1). -/

namespace Sys2Proof.Machine

/-- After folding `k` 0 bits into `s ^^^ v`, the part of `v` not yet folded still stands in the state, shifted to its top. -/
theorem foldBits_xor_shiftLeft (v s : Byte) {k : Nat} (hk : k ≤ 8) :
    (crc8Step false)^[k] (s ^^^ v) = foldBits v ((List.range k).map (7 - ·)) s ^^^ (v <<< k) := by
  induction k with
  | zero => simp
  | succ k ih =>
    have hlow : ¬ 7 < k := by omega
    have hbit : (v <<< k).getLsbD 7 = v.getLsbD (7 - k) := by
      rw [BitVec.getLsbD_shiftLeft, decide_eq_false hlow]
      rfl
    rw [Function.iterate_succ_apply', ih (by omega), crc8Step_false_xor, hbit, ← BitVec.shiftLeft_add, List.range_succ]
    simp [foldBits]

theorem foldBits_byte (v s : Byte) : foldBits v (descending 8) s = (crc8Step false)^[8] (s ^^^ v) := by
  have hfold := foldBits_xor_shiftLeft v s (Nat.le_refl 8)
  rw [BitVec.shiftLeft_eq_zero (Nat.le_refl 8), BitVec.xor_zero] at hfold
  exact hfold.symm

theorem crcTable_eq_iterate (x : Byte) : crcTable x = (crc8Step false)^[8] x := rfl

/-- Eight steps of the fold of R81 are one look-up in the table. -/
theorem crcFold_add_eight (t : BitVec 24) (lo : Nat) (s : Byte) :
    crcFold t (lo + 8) s = crcFold t lo (crcTable (s ^^^ t.extractLsb' lo 8)) := by
  rw [crcTable_eq_iterate, ← foldBits_byte]
  simp [descending, List.range_succ, foldBits_cons, crcFold_succ]

theorem crc24_eq_bytewise (t : BitVec 24) : crc24 t = crc24Bytewise t := by
  rw [crc24, crc24Bytewise, crcFold_add_eight t 16, crcFold_add_eight t 8, crcFold_add_eight t 0, crcFold_zero]

end Sys2Proof.Machine
end

section
/-! PROOFS. A frame with one bit of its CRC span flipped (40_build_and_crc.md R91). -/

namespace Sys2Proof.Machine

theorem crcMatches_iff (f : Word) : crcMatches f = true ↔ frameCrc f = crc24 (frameTop24 f) := by simp [crcMatches]

theorem frameCrc_flip (f : Word) {k : Nat} (hk : 8 ≤ k) : frameCrc (f ^^^ BitVec.twoPow 32 k) = frameCrc f := by
  refine BitVec.eq_of_getLsbD_eq fun i hi => ?_
  have hne : k ≠ i := by omega
  simp [frameCrc, BitVec.getLsbD_twoPow, hne]

theorem frameTop24_flip (f : Word) {k : Nat} (hk : 8 ≤ k) (hk' : k < 32) :
    frameTop24 (f ^^^ BitVec.twoPow 32 k) = frameTop24 f ^^^ BitVec.twoPow 24 (k - 8) := by
  refine BitVec.eq_of_getLsbD_eq fun i hi => ?_
  have hiff : k = 8 + i ↔ i = k - 8 := by omega
  simp [frameTop24, BitVec.getLsbD_twoPow, hi, hk', hiff]

/-- The recomputed CRC changes by a delta, which is not 0, and the embedded one does not. -/
theorem crcMatches_flip {f : Word} (hf : crcMatches f = true) {k : Nat} (hk : 8 ≤ k) (hk' : k < 32) :
    crcMatches (f ^^^ BitVec.twoPow 32 k) = false := by
  rw [← Bool.not_eq_true, crcMatches_iff, frameCrc_flip f hk, frameTop24_flip f hk hk', crc24_flip _ (by omega : k - 8 < 24),
    (crcMatches_iff f).mp hf]
  exact fun h => bitDelta_ne_zero (by omega : k - 8 < 24) ((BitVec.xor_right_inj _).mp (h.symm.trans BitVec.xor_zero.symm))

end Sys2Proof.Machine
end

section
/-! PROOFS. What PACK, CRC and the serial CRC commands write when accepted, and CRC values of single spans and frames
(40_build_and_crc.md R82 to R87). -/

namespace Sys2Proof.Machine

/-- The shift of the CRC step as R80 writes it. -/
theorem shiftLeft_one_eq_append (s : Byte) : s <<< 1 = s.extractLsb 6 0 ++ 0#1 :=
  BitVec.shiftLeft_eq_concat_of_lt (by decide)

theorem exec_pack (w : Bool) (r : BitVec 5) (d : BitVec 16) (s : State) :
    exec (.pack w r d) s = .next { s with res := buildFrame w r d } := rfl

theorem exec_crc (t : BitVec 24) (s : State) : exec (.crc t) s = .next { s with res := zext32 (crc24 t) } := rfl

theorem exec_crci (s : State) : exec .crci s = .next { s with acc := 0xFF#8 } := rfl

theorem exec_crcb (b : Bool) (s : State) : exec (.crcb b) s = .next { s with acc := crc8Step b s.acc } := rfl

theorem exec_crcf (s : State) : exec .crcf s = .next { s with res := zext32 (~~~ s.acc) } := rfl

theorem exec_crcr (s : State) : exec .crcr s = .next { s with res := zext32 s.acc } := rfl

theorem exec_fgyd (rz rz2 ry ry2 : BitVec 3) (s : State) :
    exec (.fgyd rz rz2 ry ry2) s =
      .next { s with res := filterFrame s.params.addrFgyd (fgydPayload s.params rz rz2 ry ry2) } := rfl

theorem acceptCommand_pack (a : Word) (s : State) :
    acceptCommand 0x10#8 a s =
      .next { s with res := buildFrame (a.getLsbD 21) (a.extractLsb' 16 5) (a.extractLsb' 0 16) } := by
  rw [acceptCommand_of_decode (decode_pack a), exec_pack]

theorem acceptCommand_crc (a : Word) (s : State) :
    acceptCommand 0x20#8 a s = .next { s with res := zext32 (crc24 (a.extractLsb' 8 24)) } := by
  rw [acceptCommand_of_decode (decode_crc a), exec_crc]

theorem crc24_ones : crc24 0xFFFFFF#24 = 0x7A#8 := by decide +kernel

theorem crc24_setNormal : crc24 0xE40000#24 = 0x67#8 := by decide +kernel

theorem crc24_setEoi : crc24 0xE00002#24 = 0x5B#8 := by decide +kernel

theorem buildFrame_zero : buildFrame false 0x00#5 0x0000#16 = 0x000000F1#32 := by
  rw [buildFrame, withCrc, show requestSpan false 0x00#5 0x0000#16 = 0x000000#24 from rfl, crc24_zero]
  rfl

end Sys2Proof.Machine
end

section
/-! PROOFS. Two DUE gyro filter frames under EX with different payloads and the same CRC byte (43_filter_frames.md R133, R136). -/

namespace Sys2Proof.Machine

/-- Under EX the codes 7, 2, 3 and 0 set the span bits 0, 1, 2, 5, 8 and 9, whose deltas cancel:
1D ^ 3A ^ 74 ^ 87 ^ 4C ^ 98 = 00 (40_build_and_crc.md R91). -/
theorem foldBits_fgydCodes : foldBits 0x000327#24 (descending 24) 0x00#8 = 0x00#8 := by decide +kernel

theorem crc24_fgydZeros : crc24 0x8C0000#24 = 0x3B#8 := by decide +kernel

/-- The span with the codes placed is the one without them, XORed with bits that leave the CRC as it is. -/
theorem crc24_fgydCodes : crc24 0x8C0327#24 = 0x3B#8 := by
  have hxor := crc24_xor 0x8C0000#24 0x000327#24
  rwa [foldBits_fgydCodes, crc24_fgydZeros] at hxor

theorem filterFrame_fgydZeros :
    filterFrame Params.ex.addrFgyd (fgydPayload Params.ex 0#3 0#3 0#3 0#3) = 0x8C00003B#32 := by
  have hspan : requestSpan true Params.ex.addrFgyd (fgydPayload Params.ex 0#3 0#3 0#3 0#3) = 0x8C0000#24 := by decide
  rw [filterFrame, hspan, withCrc, crc24_fgydZeros]
  rfl

theorem filterFrame_fgydCodes :
    filterFrame Params.ex.addrFgyd (fgydPayload Params.ex 7#3 2#3 3#3 0#3) = 0x8C03273B#32 := by
  have hspan : requestSpan true Params.ex.addrFgyd (fgydPayload Params.ex 7#3 2#3 3#3 0#3) = 0x8C0327#24 := by decide
  rw [filterFrame, hspan, withCrc, crc24_fgydCodes]
  rfl

end Sys2Proof.Machine
end

section
/-! PROOFS. The statements about building frames and the CRC settled (40_build_and_crc.md). -/

namespace Sys2Proof.Machine

/-- Settles O14: the step is a shift and a conditional XOR, each of which is linear. -/
theorem crcStepFollowsItsPseudocodeAndIsLinear : Obligations.CrcStepFollowsItsPseudocodeAndIsLinear := by
  refine ⟨fun b s => ?_, crc8Step_xor, crc8Step_false_zero, crc8Step_true_zero, rfl, crc8Step_true_top, rfl,
    crc8Step_true_ones⟩
  rw [← shiftLeft_one_eq_append]
  rfl

/-- Settles O16: flipping bit `k` adds to the CRC what a single 1 bit leaves when `k` bits are folded after it. -/
theorem singleBitFlipChangesCrcByAFixedDelta : Obligations.SingleBitFlipChangesCrcByAFixedDelta := by
  unfold Obligations.SingleBitFlipChangesCrcByAFixedDelta
  intro δ
  have hδ : δ = (List.range 24).map bitDelta := map_bitDelta_range.symm
  refine ⟨fun t k hk => ?_, fun d hd => ?_, fun f k hk hk' hf => crcMatches_flip hf hk hk'⟩
  · have hget : δ.getD k 0x00#8 = bitDelta k := by simp [hδ, List.getD_eq_getElem?_getD, hk]
    rw [hget]
    exact crc24_flip t hk
  · rw [hδ] at hd
    obtain ⟨k, hk, rfl⟩ := List.mem_map.mp hd
    exact bitDelta_ne_zero (List.mem_range.mp hk)

/-- Settles O17: a byte's eight bits folded in are eight 0 bits folded into their XOR with the state, which is a table entry. -/
theorem bytewiseCrcEqualsBitwise : Obligations.BytewiseCrcEqualsBitwise :=
  ⟨foldBits_byte, crc24_eq_bytewise⟩

/-- Settles O19: if all folds agreed, each position's bit would be followed by as many positions as in R81's order. -/
theorem otherBitOrdersComputeAnotherFunction : Obligations.OtherBitOrdersComputeAnotherFunction := by
  intro order hperm hne
  by_contra hall
  refine hne (eq_descending_of_foldBits_eq hperm (s := 0xFF#8) fun t => ?_)
  have ht : ~~~ foldBits t order 0xFF#8 = crc24 t := not_not.mp fun h => hall ⟨t, h⟩
  rwa [crc24_eq_foldBits, BitVec.not_inj] at ht

/-- Settles O15: the order of R81 is the positions from 23 down. -/
theorem crcOfASpanIsTheSeededFoldComplemented : Obligations.CrcOfASpanIsTheSeededFoldComplemented :=
  ⟨crc24_eq_foldBits, crc24_setNormal, crc24_setEoi⟩

/-- Settles O21: `RES` takes the frame built from the operand's fields; both nonzero operands have those of
0xE4000067. -/
theorem packBuildsTheFrame : Obligations.PackBuildsTheFrame := by
  refine ⟨fun s w r d => exec_pack w r d s, decode_pack, fun s => ⟨?_, ?_, ?_⟩⟩
  · rw [← buildFrame_zero]
    exact acceptCommand_pack 0x00000000#32 s
  · rw [← buildFrame_setNormal]
    exact acceptCommand_pack 0x00390000#32 s
  · rw [← buildFrame_setNormal]
    exact acceptCommand_pack 0xFFF90000#32 s

/-- Settles O22: the span is the operand without its low byte. -/
theorem crcCommandWritesTheSpansCrc : Obligations.CrcCommandWritesTheSpansCrc := by
  refine ⟨fun s t => exec_crc t s, decode_crc, fun s => ⟨?_, fun x => ?_, ?_⟩⟩
  · rw [acceptCommand_crc, show (0x00000000#32).extractLsb' 8 24 = 0x000000#24 from rfl, crc24_zero]
    rfl
  · rw [acceptCommand_crc, BitVec.extractLsb'_append_eq_left, crc24_ones]
    rfl
  · rw [acceptCommand_crc, show (0xE00002AA#32).extractLsb' 8 24 = 0xE00002#24 from rfl, crc24_setEoi]
    rfl

/-- Settles O23: `ACC` takes the seed, which it holds already after CRCI and after reset. -/
theorem crciLoadsTheSeed : Obligations.CrciLoadsTheSeed :=
  ⟨exec_crci, fun s => exec_crci { s with acc := 0xFF#8 }, exec_crci State.reset, decode_crci⟩

/-- Settles O24: `ACC` takes the CRC step of the bit, whose corner values are R80's. -/
theorem crcbFoldsOneBitIntoAcc : Obligations.CrcbFoldsOneBitIntoAcc := by
  refine ⟨fun s b => exec_crcb b s, decode_crcb, fun s => ⟨?_, ?_, ?_, ?_⟩⟩
  · exact acceptCommand_of_decode (decode_crcb 0x00000002#32) s
  · rw [exec_crcb, crc8Step_false_zero]
  · rw [exec_crcb, crc8Step_true_top]
  · rw [exec_crcb, crc8Step_true_ones]

/-- Settles O25: `RES` takes the complement of `ACC`, and `ACC` stays, for a second CRCF or a CRCB to use. -/
theorem crcfReadsTheComplementOfAcc : Obligations.CrcfReadsTheComplementOfAcc := by
  refine ⟨exec_crcf, fun s t h => ?_, fun s => ?_, decode_crcf⟩
  · obtain rfl : writeRes (zext32 (~~~ s.acc)) s = t := by simpa [exec_crcf, writeRes] using h
    exact ⟨exec_crcf _, fun b => exec_crcb b _⟩
  · rw [exec_crcf, show zext32 (~~~ 0xA4#8) = 0x0000005B#32 from by decide]

/-- Settles O26: `RES` takes `ACC`, which is the seed right after reset. -/
theorem crcrReadsAcc : Obligations.CrcrReadsAcc :=
  ⟨exec_crcr, exec_crcr State.reset, fun s => exec_crcr { s with acc := 0xA4#8 }, decode_crcr⟩

/-- Settles O45: the two spans differ in bits whose deltas cancel. -/
theorem crcByteCanStayWhenSeveralCodesChange : Obligations.CrcByteCanStayWhenSeveralCodesChange := by
  intro s hex
  constructor
  · rw [exec_fgyd, hex, filterFrame_fgydZeros]
  · rw [exec_fgyd, hex, filterFrame_fgydCodes]

end Sys2Proof.Machine
end

section
/-! PROOFS. What VERIFY writes, and a frame that passes the check with any one of its bits flipped (41_verify.md R100, R101). -/

namespace Sys2Proof.Machine

theorem exec_verify (f : Word) (s : State) :
    exec (.verify f) s = .next { s with res := verifyReport f, crcok := crcMatches f } := rfl

/-- Bit 0 of the report is the check's answer (41_verify.md R100). -/
theorem verifyReport_getLsbD_zero (f : Word) : (verifyReport f).getLsbD 0 = crcMatches f := by
  simp only [verifyReport, BitVec.getLsbD_append]
  simp

/-- VERIFY's flag and bit 0 of its `RES` are the check's answer (41_verify.md R100, R101). -/
theorem exec_verify_of_crcMatches {f : Word} {ok : Bool} (h : crcMatches f = ok) (s : State) :
    ∃ v, exec (.verify f) s = .next v ∧ v.crcok = ok ∧ v.res.getLsbD 0 = ok :=
  ⟨_, exec_verify f s, h, (verifyReport_getLsbD_zero f).trans h⟩

@[simp] theorem frameCrc_append (t : BitVec 24) (c : Byte) : frameCrc (t ++ c) = c :=
  BitVec.extractLsb'_append_eq_right

@[simp] theorem frameTop24_append (t : BitVec 24) (c : Byte) : frameTop24 (t ++ c) = t :=
  BitVec.extractLsb'_append_eq_left

/-- VERIFY of a span whose CRC is `v`, with the byte `c` embedded. -/
theorem exec_verify_append {t : BitVec 24} {v : Byte} (hv : crc24 t = v) (c : Byte) (s : State) :
    exec (.verify (t ++ c)) s =
      .next { s with res := 0x00#8 ++ c ++ v ++ 0#7 ++ BitVec.ofBool (c == v), crcok := c == v } := by
  rw [exec_verify, verifyReport, crcMatches, frameCrc_append, frameTop24_append, hv]

theorem crc24_erStatus : crc24 0x2F8000#24 = 0x8E#8 := by decide +kernel

theorem frameCrc_flip_low (f : Word) {k : Nat} (hk : k < 8) :
    frameCrc (f ^^^ BitVec.twoPow 32 k) = frameCrc f ^^^ BitVec.twoPow 8 k := by
  refine BitVec.eq_of_getLsbD_eq fun i hi => ?_
  have hk' : k < 32 := by omega
  simp [frameCrc, BitVec.getLsbD_twoPow, hi, hk', eq_comm]

theorem frameTop24_flip_low (f : Word) {k : Nat} (hk : k < 8) : frameTop24 (f ^^^ BitVec.twoPow 32 k) = frameTop24 f := by
  refine BitVec.eq_of_getLsbD_eq fun i hi => ?_
  have hne : k ≠ 8 + i := by omega
  simp [frameTop24, BitVec.getLsbD_twoPow, hne]

/-- The embedded CRC changes and the recomputed one does not. -/
theorem crcMatches_flip_low {f : Word} (hf : crcMatches f = true) {k : Nat} (hk : k < 8) :
    crcMatches (f ^^^ BitVec.twoPow 32 k) = false := by
  have hbit : BitVec.twoPow 8 k ≠ 0x00#8 := by
    intro h
    have hk' : (BitVec.twoPow 8 k).getLsbD k = true := by simp [hk]
    simp [h] at hk'
  rw [← Bool.not_eq_true, crcMatches_iff, frameCrc_flip_low f hk, frameTop24_flip_low f hk, ← (crcMatches_iff f).mp hf]
  exact fun h => hbit ((BitVec.xor_right_inj _).mp (h.trans BitVec.xor_zero.symm))

/-- Each bit of a frame is in the embedded CRC or in the span it is computed from (41_verify.md R101). -/
theorem crcMatches_flip_any {f : Word} (hf : crcMatches f = true) {k : Nat} (hk : k < 32) :
    crcMatches (f ^^^ BitVec.twoPow 32 k) = false := by
  rcases Nat.lt_or_ge k 8 with hlow | hspan
  · exact crcMatches_flip_low hf hlow
  · exact crcMatches_flip hf hspan hk

end Sys2Proof.Machine
end

section
/-! PROOFS. The statements about VERIFY settled (41_verify.md). -/

namespace Sys2Proof.Machine

/-- Settles O28: VERIFY answers with the check, which the built frame passes and, with one bit flipped, fails. -/
theorem packedFramesVerifyAndNoFlippedOneDoes : Obligations.PackedFramesVerifyAndNoFlippedOneDoes := by
  intro s u w r d
  have hf : crcMatches (buildFrame w r d) = true := crcMatches_withCrc (requestSpan w r d)
  exact ⟨_, exec_pack w r d s, exec_verify_of_crcMatches hf u,
    fun k hk => exec_verify_of_crcMatches (crcMatches_flip_any hf hk) u⟩

/-- Settles O27: the report is that of the word's span and low byte; each example's span has a known CRC. -/
theorem verifyReportsTheCheck : Obligations.VerifyReportsTheCheck :=
  ⟨fun s f => exec_verify f s, decode_verify, fun s =>
    ⟨exec_verify_append crc24_zero 0x00#8 s, exec_verify_append crc24_zero 0xF1#8 s,
      exec_verify_append crc24_erStatus 0x8E#8 s, exec_verify_append crc24_setNormal 0x67#8 s,
      exec_verify_append crc24_setNormal 0x66#8 s⟩⟩

end Sys2Proof.Machine
end

section
/-! PROOFS. What the eight decoders write: a value taken from the frame, and the frame's check (42_decode.md R110 to R121). -/

namespace Sys2Proof.Machine

/-- The commands `mk` read a frame, and `val` of the frame is what they leave in `RES` (42_decode.md R110). -/
def DecodesAs (mk : Word → Instr) (val : Word → Word) : Prop :=
  ∀ f s, exec (mk f) s = .next (readFrame f (val f) s)

theorem s16_decodesAs : DecodesAs .s16 fun f => sext32 (framePayload f) := fun _ _ => rfl

theorem u16_decodesAs : DecodesAs .u16 fun f => zext32 (framePayload f) := fun _ _ => rfl

theorem s8h_decodesAs : DecodesAs .s8h fun f => sext32 (frameHi f) := fun _ _ => rfl

theorem s8l_decodesAs : DecodesAs .s8l fun f => sext32 (frameLo f) := fun _ _ => rfl

theorem rsx_decodesAs : DecodesAs .rsx fun f => statusWord (frameRs f) := fun _ _ => rfl

theorem addr_decodesAs : DecodesAs .addr fun f => zext32 (frameAddr f) := fun _ _ => rfl

theorem rw_decodesAs : DecodesAs .rw fun f => zext32 (BitVec.ofBool (frameRw f)) := fun _ _ => rfl

theorem onehot_decodesAs : DecodesAs .onehot fun f => 0x00000001#32 <<< (frameAddr f).toNat := fun _ _ => rfl

section
variable {mk : Word → Instr} {val : Word → Word}

theorem DecodesAs.exec_eq (h : DecodesAs mk val) (s : State) (f : Word) :
    exec (mk f) s =
      .next { s with res := val f, crcok := f.extractLsb 7 0 == crc24 (f.extractLsb 31 8) } :=
  h f s

theorem DecodesAs.res_eq (h : DecodesAs mk val) {s t : State} {f : Word} (ht : exec (mk f) s = .next t) :
    t.res = val f := by
  rw [h f s, Host.Outcome.next.injEq] at ht
  rw [← ht, readFrame_res]

/-- The decode of a frame that passes the check, with its value computed. -/
theorem DecodesAs.exec_of_crcMatches (h : DecodesAs mk val) {f v : Word} (hcrc : crcMatches f = true) (hv : val f = v)
    (s : State) : exec (mk f) s = .next { s with res := v, crcok := true } := by
  rw [h f s, hv, readFrame, hcrc, writeRes, writeCrcok]

end

/-- The frames of the rules' corner cases and examples, and those the built frames give, carry the right CRC byte
(42_decode.md, 95_test_vectors.md). -/
theorem crcMatches_of_mem_examples : ∀ f ∈ [0x000000F1#32, 0x0100007E#32, 0x017FFF32#32, 0x018000B7#32, 0x01FFFFFB#32,
    0x057F80D6#32, 0x058001AC#32, 0x1601029A#32, 0x2AFF7F6D#32, 0x2F80008E#32, 0x7FFFFFBA#32, 0xE000025B#32,
    0xE4000067#32], crcMatches f = true := by
  rw [← List.all_eq_true]
  decide +kernel

/-- A bit from 8 up belongs to the CRC span (00_scope.md R13). -/
theorem getLsbD_eq_of_frameTop24_eq {f g : Word} (h : frameTop24 f = frameTop24 g) {i : Nat} (hi : 8 ≤ i) (hi' : i < 32) :
    f.getLsbD i = g.getLsbD i := by
  have hbit : (frameTop24 f).getLsbD (i - 8) = (frameTop24 g).getLsbD (i - 8) := by rw [h]
  have hlt : i - 8 < 24 := by omega
  have hadd : 8 + (i - 8) = i := by omega
  simpa [frameTop24, hlt, hadd] using hbit

/-- A field above the CRC byte is read from the CRC span alone. -/
theorem extractLsb'_eq_of_frameTop24_eq {f g : Word} (h : frameTop24 f = frameTop24 g) {start len : Nat} (hlo : 8 ≤ start)
    (hhi : start + len ≤ 32) : f.extractLsb' start len = g.extractLsb' start len := by
  refine BitVec.eq_of_getLsbD_eq fun i hi => ?_
  rw [BitVec.getLsbD_extractLsb', BitVec.getLsbD_extractLsb', getLsbD_eq_of_frameTop24_eq h (by omega) (by omega)]

/-- The fields of a frame other than its CRC byte lie in the CRC span (00_scope.md R13). -/
theorem frameFields_eq_of_frameTop24_eq {f g : Word} (h : frameTop24 f = frameTop24 g) :
    frameRw f = frameRw g ∧ frameAddr f = frameAddr g ∧ frameRs f = frameRs g ∧ framePayload f = framePayload g ∧
      frameHi f = frameHi g ∧ frameLo f = frameLo g := by
  refine ⟨getLsbD_eq_of_frameTop24_eq h (by decide) (by decide), ?_, ?_, ?_, ?_, ?_⟩
  all_goals exact extractLsb'_eq_of_frameTop24_eq h (by decide) (by decide)

/-- Every decoder's value is read from fields above the CRC byte (42_decode.md R110, R111). -/
theorem exists_decodesAs_span : ∀ mk ∈ [Instr.s16, Instr.u16, Instr.s8h, Instr.s8l, Instr.rsx, Instr.addr, Instr.rw,
    Instr.onehot], ∃ val, DecodesAs mk val ∧ ∀ f g, frameTop24 f = frameTop24 g → val f = val g := by
  simp only [List.forall_mem_cons]
  refine ⟨⟨_, s16_decodesAs, ?_⟩, ⟨_, u16_decodesAs, ?_⟩, ⟨_, s8h_decodesAs, ?_⟩, ⟨_, s8l_decodesAs, ?_⟩,
    ⟨_, rsx_decodesAs, ?_⟩, ⟨_, addr_decodesAs, ?_⟩, ⟨_, rw_decodesAs, ?_⟩, ⟨_, onehot_decodesAs, ?_⟩,
    List.forall_mem_nil _⟩
  all_goals
    intro f g h
    simp only [frameFields_eq_of_frameTop24_eq h]

end Sys2Proof.Machine
end

section
/-! PROOFS. The values of extended fields, of the one-hot select lines and of the status word (00_scope.md R10, 42_decode.md R116 to R118,
R121, R123). -/

namespace Sys2Proof.Machine

theorem toInt_sext32 {n : Nat} (hn : n ≤ 32) (v : BitVec n) : (sext32 v).toInt = v.toInt :=
  BitVec.toInt_signExtend_of_le hn

theorem toNat_zext32 {n : Nat} (hn : n ≤ 32) (v : BitVec n) : (zext32 v).toNat = v.toNat :=
  BitVec.toNat_setWidth_of_le hn

/-- Zero extension leaves 0 above the field's width. -/
theorem zext32_extractLsb'_high {n : Nat} (v : BitVec n) (len : Nat) : (zext32 v).extractLsb' n len = 0#len := by
  refine BitVec.eq_of_getLsbD_eq fun i _ => ?_
  simp [zext32]

theorem zext32_ofBool (b : Bool) : zext32 (BitVec.ofBool b) = 0x00000000#32 ∨ zext32 (BitVec.ofBool b) = 0x00000001#32 := by
  cases b
  · exact .inl rfl
  · exact .inr rfl

theorem extractLsb_31_31 (f : Word) : f.extractLsb 31 31 = BitVec.ofBool (frameRw f) := by
  refine BitVec.eq_of_getLsbD_eq fun i hi => ?_
  obtain rfl : i = 0 := by omega
  simp [frameRw]

/-- A select line within the word: that bit is 1 and no other (42_decode.md R121). -/
theorem getLsbD_one_shiftLeft {n j : Nat} (hj : j < 32) : (0x00000001#32 <<< n).getLsbD j = true ↔ j = n := by
  simp only [← BitVec.twoPow_eq, BitVec.getLsbD_twoPow, Bool.and_eq_true, decide_eq_true_eq]
  omega

theorem one_shiftLeft_ne_zero {n : Nat} (hn : n < 32) : 0x00000001#32 <<< n ≠ 0x00000000#32 := by
  intro h
  have hbit := (getLsbD_one_shiftLeft hn).mpr rfl
  simp [h] at hbit

theorem returnStatus_eq_IN_iff (rs : BitVec 2) : returnStatus rs = .IN ↔ rs = 0b00#2 := by decide +revert
theorem returnStatus_eq_OK_iff (rs : BitVec 2) : returnStatus rs = .OK ↔ rs = 0b01#2 := by decide +revert
theorem returnStatus_eq_ST_iff (rs : BitVec 2) : returnStatus rs = .ST ↔ rs = 0b10#2 := by decide +revert
theorem returnStatus_eq_ER_iff (rs : BitVec 2) : returnStatus rs = .ER ↔ rs = 0b11#2 := by decide +revert

/-- The status word's bits, from IS_IN up to NOT_OK (42_decode.md R117). -/
theorem statusWord_getLsbD (rs : BitVec 2) :
    (statusWord rs).getLsbD 2 = (rs == 0b00#2) ∧ (statusWord rs).getLsbD 3 = (rs == 0b01#2) ∧
    (statusWord rs).getLsbD 4 = (rs == 0b10#2) ∧ (statusWord rs).getLsbD 5 = (rs == 0b11#2) ∧
    (statusWord rs).getLsbD 6 = notOk rs := by
  simp only [statusWord, BitVec.getLsbD_append]
  simp

/-- The raw field stands in `RES[1:0]` (42_decode.md R117, R123). -/
theorem toNat_statusWord_mod_four (rs : BitVec 2) : (statusWord rs).toNat % 4 = rs.toNat := by
  have hlow : (statusWord rs).extractLsb' 0 2 = rs := BitVec.extractLsb'_append_eq_right
  simpa using congrArg BitVec.toNat hlow

/-- Exactly one of IS_IN, IS_OK, IS_ST and IS_ER is set: one for each of the four codes (42_decode.md R117). -/
theorem statusWord_onehot (rs : BitVec 2) :
    (statusWord rs).extractLsb 5 2 ∈ [0b0001#4, 0b0010#4, 0b0100#4, 0b1000#4] := by
  decide +revert

theorem statusWord_notOk_eq_not_isOk (rs : BitVec 2) : (statusWord rs).getLsbD 6 = !(statusWord rs).getLsbD 3 := by
  obtain ⟨-, hok, -, -, hnot⟩ := statusWord_getLsbD rs
  rw [hok, hnot, notOk, bne]

end Sys2Proof.Machine
end

section
/-! PROOFS. The statements about the eight decoders settled (42_decode.md). -/

namespace Sys2Proof.Machine

/-- Settles O40: extension keeps the field's value, which its width bounds. -/
theorem extractorsGiveTheFieldsValue : Obligations.ExtractorsGiveTheFieldsValue := by
  intro s f
  refine ⟨⟨_, s16_decodesAs f s, ?_⟩, ⟨_, u16_decodesAs f s, ?_⟩, ⟨_, s8h_decodesAs f s, ?_⟩, ⟨_, s8l_decodesAs f s, ?_⟩,
    ⟨_, addr_decodesAs f s, ?_⟩, ⟨_, rw_decodesAs f s, ?_⟩, ⟨_, rsx_decodesAs f s, ?_⟩⟩
  · rw [readFrame_res, toInt_sext32 (by decide)]
    exact ⟨rfl, BitVec.le_toInt (framePayload f), Int.le_of_lt_add_one (BitVec.toInt_lt (x := framePayload f))⟩
  · rw [readFrame_res, toNat_zext32 (by decide)]
    exact ⟨rfl, Nat.le_of_lt_succ (framePayload f).isLt⟩
  · rw [readFrame_res, toInt_sext32 (by decide)]
    exact ⟨rfl, BitVec.le_toInt (frameHi f), Int.le_of_lt_add_one (BitVec.toInt_lt (x := frameHi f))⟩
  · rw [readFrame_res, toInt_sext32 (by decide)]
    exact ⟨rfl, BitVec.le_toInt (frameLo f), Int.le_of_lt_add_one (BitVec.toInt_lt (x := frameLo f))⟩
  · rw [readFrame_res, toNat_zext32 (by decide)]
    exact ⟨rfl, Nat.le_of_lt_succ (frameAddr f).isLt⟩
  · rw [readFrame_res, toNat_zext32 (by decide), extractLsb_31_31]
    exact ⟨rfl, Nat.le_of_lt_succ (BitVec.ofBool (frameRw f)).isLt⟩
  · exact toNat_statusWord_mod_four (frameRs f)

/-- Settles O41: the value is read above the CRC byte, so the frames share it, and the check is each frame's own. -/
theorem crcMismatchNeverChangesTheDecode : Obligations.CrcMismatchNeverChangesTheDecode := by
  intro mk hmk s f g hspan
  obtain ⟨val, hdec, hval⟩ := exists_decodesAs_span mk hmk
  refine ⟨val f, hdec.exec_eq s f, ?_⟩
  rw [hval f g hspan]
  exact hdec.exec_eq s g

/-- Settles O42: each of the five bits compares the field with a code. -/
theorem notOkIsEveryCodeButOk : Obligations.NotOkIsEveryCodeButOk := by
  intro s f
  obtain ⟨hin, hok, hst, her, hnot⟩ := statusWord_getLsbD (frameRs f)
  refine ⟨_, rsx_decodesAs f s, ?_, ?_, ?_, ?_, ?_, readFrame_acc _ _ s, readFrame_err _ _ s⟩
  · rw [readFrame_res, hin, beq_iff_eq]
    exact (returnStatus_eq_IN_iff _).symm
  · rw [readFrame_res, hok, beq_iff_eq]
    exact (returnStatus_eq_OK_iff _).symm
  · rw [readFrame_res, hst, beq_iff_eq]
    exact (returnStatus_eq_ST_iff _).symm
  · rw [readFrame_res, her, beq_iff_eq]
    exact (returnStatus_eq_ER_iff _).symm
  · rw [readFrame_res, hnot, notOk, bne_iff_ne]
    rfl

/-- Settles O29: the value is the sign-extended payload; each example's frame passes the check. -/
theorem s16SignExtendsThePayload : Obligations.S16SignExtendsThePayload := by
  refine ⟨s16_decodesAs.exec_eq, decode_s16, fun s => ⟨?_, ?_, ?_, ?_, ?_⟩⟩
  all_goals exact s16_decodesAs.exec_of_crcMatches (crcMatches_of_mem_examples _ (by decide)) (by decide) s

/-- Settles O30: the value is the zero-extended payload, so nothing stands above it. -/
theorem u16ZeroExtendsThePayload : Obligations.U16ZeroExtendsThePayload := by
  refine ⟨u16_decodesAs.exec_eq, decode_u16, fun s t f h => ?_, fun s => ⟨?_, ?_, ?_⟩⟩
  · rw [u16_decodesAs.res_eq h]
    exact zext32_extractLsb'_high (framePayload f) 16
  all_goals exact u16_decodesAs.exec_of_crcMatches (crcMatches_of_mem_examples _ (by decide)) (by decide) s

/-- Settles O31: the value is the sign-extended high byte; each example's frame passes the check. -/
theorem s8hSignExtendsTheHighByte : Obligations.S8hSignExtendsTheHighByte := by
  refine ⟨s8h_decodesAs.exec_eq, decode_s8h, fun s => ⟨?_, ?_, ?_⟩⟩
  all_goals exact s8h_decodesAs.exec_of_crcMatches (crcMatches_of_mem_examples _ (by decide)) (by decide) s

/-- Settles O32: the value is the sign-extended low byte; each example's frame passes the check. -/
theorem s8lSignExtendsTheLowByte : Obligations.S8lSignExtendsTheLowByte := by
  refine ⟨s8l_decodesAs.exec_eq, decode_s8l, fun s => ⟨?_, ?_⟩⟩
  all_goals exact s8l_decodesAs.exec_of_crcMatches (crcMatches_of_mem_examples _ (by decide)) (by decide) s

/-- Settles O33: the value is the status word of the field, whose bits obey R117's laws. -/
theorem rsxDecodesTheReturnStatus : Obligations.RsxDecodesTheReturnStatus := by
  refine ⟨rsx_decodesAs.exec_eq, decode_rsx, fun s t f h => ?_, fun s => ⟨?_, ?_, ?_, ?_⟩⟩
  · rw [rsx_decodesAs.res_eq h]
    exact ⟨statusWord_onehot (frameRs f), statusWord_notOk_eq_not_isOk (frameRs f)⟩
  all_goals exact rsx_decodesAs.exec_of_crcMatches (crcMatches_of_mem_examples _ (by decide)) (by decide) s

/-- Settles O34: the value is the zero-extended address, of 5 bits. -/
theorem addrExtractsTheRegisterAddress : Obligations.AddrExtractsTheRegisterAddress := by
  refine ⟨addr_decodesAs.exec_eq, decode_addr, fun s t f h => ?_, fun s => ⟨?_, ?_, ?_⟩⟩
  · rw [addr_decodesAs.res_eq h, toNat_zext32 (by decide)]
    exact Nat.le_of_lt_succ (frameAddr f).isLt
  all_goals exact addr_decodesAs.exec_of_crcMatches (crcMatches_of_mem_examples _ (by decide)) (by decide) s

/-- Settles O35: the value is the zero-extended R/W bit. -/
theorem rwExtractsTheReadWriteBit : Obligations.RwExtractsTheReadWriteBit := by
  refine ⟨rw_decodesAs.exec_eq, decode_rw, fun s t f h => ?_, fun s => ⟨?_, ?_⟩⟩
  · rw [rw_decodesAs.res_eq h]
    exact zext32_ofBool (frameRw f)
  all_goals exact rw_decodesAs.exec_of_crcMatches (crcMatches_of_mem_examples _ (by decide)) (by decide) s

/-- Settles O36: the 5-bit address shifts the 1 to a bit within the word. -/
theorem onehotSelectsOneOf32Lines : Obligations.OnehotSelectsOneOf32Lines := by
  refine ⟨onehot_decodesAs.exec_eq, decode_onehot, fun s t f h => ?_, fun s => ⟨?_, ?_, ?_⟩⟩
  · rw [onehot_decodesAs.res_eq h]
    exact ⟨one_shiftLeft_ne_zero (frameAddr f).isLt, fun j hj => getLsbD_one_shiftLeft hj⟩
  all_goals exact onehot_decodesAs.exec_of_crcMatches (crcMatches_of_mem_examples _ (by decide)) (by decide) s

end Sys2Proof.Machine
end

section
/-! PROOFS. Two spans that differ within eight adjacent bits have different CRCs (40_build_and_crc.md R80, R81, R91). -/

namespace Sys2Proof.Machine

/-- A 1 shifted out of the top comes back as the feedback constant's bit 0, so only the zero state steps to zero. -/
theorem eq_zero_of_crc8Step_false : ∀ s : Byte, crc8Step false s = 0x00#8 → s = 0x00#8 := by decide +kernel

theorem crc8Step_injective (b : Bool) : Function.Injective (crc8Step b) := by
  intro s r h
  have hxor := crc8Step_xor b b s r
  rw [Bool.xor_self, h, BitVec.xor_self] at hxor
  exact BitVec.xor_eq_zero_iff.mp (eq_zero_of_crc8Step_false _ hxor)

theorem crcTable_injective : Function.Injective crcTable := (crc8Step_injective false).iterate 8

/-- Folding the same bits keeps two states apart. -/
theorem eq_of_crcFold_eq {t u : BitVec 24} {n : Nat} (hlow : ∀ i, i < n → t.getLsbD i = u.getLsbD i) {s r : Byte}
    (h : crcFold t n s = crcFold u n r) : s = r := by
  induction n generalizing s r with
  | zero => exact h
  | succ n ih =>
    have hstep := ih (fun i hi => hlow i (Nat.lt_succ_of_lt hi)) h
    rw [hlow n (Nat.lt_succ_self n)] at hstep
    exact crc8Step_injective _ hstep

/-- Spans alike from bit `n` up reach bit `n` in one state. -/
theorem crcFold_common_state {t u : BitVec 24} {n : Nat} (hhigh : ∀ i, n ≤ i → t.getLsbD i = u.getLsbD i) (m : Nat)
    (s : Byte) : ∃ r, crcFold t (n + m) s = crcFold t n r ∧ crcFold u (n + m) s = crcFold u n r := by
  induction m generalizing s with
  | zero => exact ⟨s, rfl, rfl⟩
  | succ m ih =>
    rw [← Nat.add_assoc, crcFold_succ, crcFold_succ, hhigh (n + m) (Nat.le_add_right n m)]
    exact ih _

/-- The folds part at the eight bits in which the spans differ, and the bits below them do not bring them together again. -/
theorem crc24_ne_of_burst {t u : BitVec 24} {lo : Nat} (hlo : lo + 8 ≤ 24)
    (hsame : ∀ i, i < lo ∨ lo + 8 ≤ i → t.getLsbD i = u.getLsbD i) (hne : t ≠ u) : crc24 t ≠ crc24 u := by
  intro h
  obtain ⟨r, ht, hu⟩ := crcFold_common_state (fun i hi => hsame i (.inr hi)) (24 - (lo + 8)) Config.crcSeed
  rw [Nat.add_sub_cancel' hlo] at ht hu
  rw [crc24, crc24, BitVec.not_inj, ht, hu, crcFold_add_eight, crcFold_add_eight] at h
  have hbyte : t.extractLsb' lo 8 = u.extractLsb' lo 8 :=
    (BitVec.xor_right_inj r).mp (crcTable_injective (eq_of_crcFold_eq (fun i hi => hsame i (.inl hi)) h))
  refine hne (BitVec.eq_of_getLsbD_eq fun i _ => ?_)
  by_cases hi : i < lo ∨ lo + 8 ≤ i
  · exact hsame i hi
  · have hbit : (t.extractLsb' lo 8).getLsbD (i - lo) = (u.extractLsb' lo 8).getLsbD (i - lo) := by rw [hbyte]
    have hlt : i - lo < 8 := by omega
    have hadd : lo + (i - lo) = i := by omega
    simpa [hlt, hadd] using hbit

end Sys2Proof.Machine
end

section
/-! PROOFS. The layout of a frame kind: which payload bits its fields cover, and when a set of offsets and fixed bits is legal
(43_filter_frames.md R132). -/

namespace Sys2Proof.Machine

/-- A code's bits stand from its offset up, and the top offset leaves room for all three. -/
theorem placeCode_getLsbD (c : BitVec 3) (o : Fin 14) (j : Nat) :
    (placeCode c o).getLsbD j = (decide (o.val ≤ j) && c.getLsbD (j - o.val)) := by
  have ho := o.isLt
  have hfrom : (!decide (j < o.val)) = decide (o.val ≤ j) := by rw [← decide_not, decide_eq_decide, Nat.not_lt]
  rw [placeCode, BitVec.getLsbD_shiftLeft, BitVec.getLsbD_setWidth, hfrom]
  rcases Nat.lt_or_ge (j - o.val) 3 with hin | hout
  · have hj : j < 16 := by omega
    have hj' : j - o.val < 16 := by omega
    simp [hj, hj']
  · simp [BitVec.getLsbD_of_ge c _ hout]

theorem placeCode_getLsbD_inside (c : BitVec 3) (o : Fin 14) (j : Nat) :
    (placeCode c o).getLsbD (o.val + j) = c.getLsbD j := by
  simp [placeCode_getLsbD]

theorem placeCode_getLsbD_outside (c : BitVec 3) {o : Fin 14} {j : Nat} (hj : j < o.val ∨ o.val + 3 ≤ j) :
    (placeCode c o).getLsbD j = false := by
  rw [placeCode_getLsbD]
  rcases hj with hbelow | habove
  · simp [hbelow]
  · simp [BitVec.getLsbD_of_ge c (j - o.val) (by omega)]

/-- The mask of a field is the code of three 1 bits placed there. -/
theorem fieldMask_eq_placeCode (o : Fin 14) : fieldMask o = placeCode (BitVec.allOnes 3) o := rfl

theorem fieldMask_getLsbD (o : Fin 14) (j : Nat) :
    (fieldMask o).getLsbD j = decide (o.val ≤ j ∧ j < o.val + 3) := by
  rw [fieldMask_eq_placeCode, placeCode_getLsbD, BitVec.getLsbD_allOnes, ← Bool.decide_and, decide_eq_decide]
  omega

/-- A word has no 1 in a field when its three bits there are 0. -/
theorem and_fieldMask_eq_zero_iff (v : BitVec 16) (o : Fin 14) :
    v &&& fieldMask o = 0#16 ↔ ∀ j, j < 3 → v.getLsbD (o.val + j) = false := by
  constructor
  · intro h j hj
    have hbit : (v &&& fieldMask o).getLsbD (o.val + j) = false := by simp [h]
    simpa [fieldMask_getLsbD, hj] using hbit
  · intro h
    refine BitVec.eq_of_getLsbD_eq fun j _ => ?_
    by_cases hj : o.val ≤ j ∧ j < o.val + 3
    · have hbit := h (j - o.val) (by omega)
      rw [Nat.add_sub_cancel' hj.1] at hbit
      simp [hbit]
    · simp [fieldMask_getLsbD, hj]

/-- Two 3-bit code fields do not overlap. -/
def FieldsApart (o o' : Fin 14) : Prop := o.val + 3 ≤ o'.val ∨ o'.val + 3 ≤ o.val

theorem fieldMask_and_eq_zero_iff (o o' : Fin 14) : fieldMask o &&& fieldMask o' = 0#16 ↔ FieldsApart o o' := by
  simp only [and_fieldMask_eq_zero_iff, fieldMask_getLsbD, decide_eq_false_iff_not, FieldsApart]
  constructor
  · intro h
    have h0 := h 0
    have h2 := h 2
    omega
  · intro h j hj
    omega

theorem fieldsDisjoint_iff (os : List (Fin 14)) : fieldsDisjoint os = true ↔ os.Pairwise FieldsApart := by
  induction os with
  | nil => simp [fieldsDisjoint]
  | cons o os ih => simp [fieldsDisjoint, ih, fieldMask_and_eq_zero_iff]

theorem fixOutsideFields_iff (fix : BitVec 16) (os : List (Fin 14)) :
    fixOutsideFields fix os = true ↔ ∀ o ∈ os, ∀ j, j < 3 → fix.getLsbD (o.val + j) = false := by
  simp [fixOutsideFields, and_fieldMask_eq_zero_iff]

/-- Constraints 1 and 2 of R132 for one frame kind, with these fixed bits and code fields. -/
structure LegalKind (fix : BitVec 16) (os : List (Fin 14)) : Prop where
  apart : os.Pairwise FieldsApart
  clear : ∀ o ∈ os, ∀ j, j < 3 → fix.getLsbD (o.val + j) = false

/-- A slot is the code's three bits and one directly above or below them, within the payload. -/
theorem mem_slotBases_iff (o : Fin 14) (x : Nat) :
    x ∈ slotBases o ↔ (x = o.val ∨ x + 1 = o.val) ∧ x + 4 ≤ 16 := by
  have ho := o.isLt
  simp only [slotBases, List.mem_append, List.mem_ite_nil_right, List.mem_singleton]
  omega

theorem mem_slots_bounds {x y z b : Nat} (h : [x, y, z].Perm [b, b + 4, b + 8]) :
    ∀ w ∈ [x, y, z], b ≤ w ∧ w ≤ b + 8 := by
  intro w hw
  have hw' := h.mem_iff.mp hw
  simp only [List.mem_cons, List.not_mem_nil, or_false] at hw'
  omega

/-- The three slots lie at `b`, `b + 4` and `b + 8` in some order exactly when each of these three is one of them, where `b`
is the lowest. -/
theorem slotsFillTwelve_iff (x y z : Nat) :
    slotsFillTwelve x y z = true ↔ ∃ b, [x, y, z].Perm [b, b + 4, b + 8] := by
  have hmem : slotsFillTwelve x y z = true ↔
      [min x (min y z), min x (min y z) + 4, min x (min y z) + 8] ⊆ [x, y, z] := by
    simp [slotsFillTwelve, List.cons_subset, or_assoc]
  rw [hmem]
  constructor
  · intro hsub
    refine ⟨min x (min y z), (List.Subperm.perm_of_length_le (List.subperm_of_subset ?_ hsub) (Nat.le_refl 3)).symm⟩
    simp
  · rintro ⟨b, hperm⟩
    have hb : b ∈ [x, y, z] := hperm.mem_iff.mpr (by simp)
    have hbounds := mem_slots_bounds hperm
    have hmin : min x (min y z) = b := by
      simp only [List.forall_mem_cons] at hbounds
      simp only [List.mem_cons, List.not_mem_nil, or_false] at hb
      omega
    rw [hmin]
    exact hperm.symm.subset

theorem accelSlotsLegal_iff (ox oy oz : Fin 14) :
    accelSlotsLegal ox oy oz = true ↔
      ∃ x y z b : Nat, (x = ox.val ∨ x + 1 = ox.val) ∧ (y = oy.val ∨ y + 1 = oy.val) ∧ (z = oz.val ∨ z + 1 = oz.val) ∧
        b + 12 ≤ 16 ∧ [x, y, z].Perm [b, b + 4, b + 8] := by
  simp only [accelSlotsLegal, List.any_eq_true, mem_slotBases_iff, slotsFillTwelve_iff]
  constructor
  · rintro ⟨x, ⟨hx, hx16⟩, y, ⟨hy, hy16⟩, z, ⟨hz, hz16⟩, b, hperm⟩
    have htop : b + 8 ∈ [x, y, z] := hperm.mem_iff.mpr (by simp)
    simp only [List.mem_cons, List.not_mem_nil, or_false] at htop
    exact ⟨x, y, z, b, hx, hy, hz, by omega, hperm⟩
  · rintro ⟨x, y, z, b, hx, hy, hz, hb, hperm⟩
    have hfit : ∀ w ∈ [x, y, z], w + 4 ≤ 16 := by
      intro w hw
      have hw' := mem_slots_bounds hperm w hw
      omega
    exact ⟨x, ⟨hx, hfit x (by simp)⟩, y, ⟨hy, hfit y (by simp)⟩, z, ⟨hz, hfit z (by simp)⟩, b, hperm⟩

theorem wellFormed_iff (p : Params) :
    p.wellFormed = true ↔
      LegalKind p.fixFacc p.faccFields ∧ LegalKind p.fixFgyu p.fgyuFields ∧ LegalKind p.fixFgyd p.fgydFields ∧
        accelSlotsLegal p.offAx p.offAy p.offAz = true := by
  simp only [Params.wellFormed, Bool.and_eq_true, fieldsDisjoint_iff, fixOutsideFields_iff]
  constructor
  · rintro ⟨⟨⟨⟨hacc, hgyu⟩, hgyd⟩, ⟨facc, fgyu⟩, fgyd⟩, hslots⟩
    exact ⟨⟨hacc, facc⟩, ⟨hgyu, fgyu⟩, ⟨hgyd, fgyd⟩, hslots⟩
  · rintro ⟨⟨hacc, facc⟩, ⟨hgyu, fgyu⟩, ⟨hgyd, fgyd⟩, hslots⟩
    exact ⟨⟨⟨⟨hacc, hgyu⟩, hgyd⟩, ⟨facc, fgyu⟩, fgyd⟩, hslots⟩

end Sys2Proof.Machine
end

section
/-! PROOFS. The payload with codes placed in its fields, and the filter frame built from it (43_filter_frames.md R131 to R137). -/

namespace Sys2Proof.Machine

/-- The fixed bits ORed with each code at its offset: the payload of a filter frame of any kind (43_filter_frames.md R134 to
R136). -/
def placeCodes (fix : BitVec 16) (fields : List (BitVec 3 × Fin 14)) : BitVec 16 :=
  fields.foldl (fun p field => p ||| placeCode field.1 field.2) fix

theorem faccPayload_eq_placeCodes (p : Params) (ax ay az : BitVec 3) :
    faccPayload p ax ay az = placeCodes p.fixFacc [(ax, p.offAx), (ay, p.offAy), (az, p.offAz)] := rfl

theorem fgyuPayload_eq_placeCodes (p : Params) (rx rx2 : BitVec 3) :
    fgyuPayload p rx rx2 = placeCodes p.fixFgyu [(rx, p.offRx), (rx2, p.offRx2)] := rfl

theorem fgydPayload_eq_placeCodes (p : Params) (rz rz2 ry ry2 : BitVec 3) :
    fgydPayload p rz rz2 ry ry2 =
      placeCodes p.fixFgyd [(rz, p.offRz), (rz2, p.offRz2), (ry, p.offRy), (ry2, p.offRy2)] := rfl

theorem placeCodes_getLsbD (fix : BitVec 16) (fields : List (BitVec 3 × Fin 14)) (j : Nat) :
    (placeCodes fix fields).getLsbD j =
      (fix.getLsbD j || fields.any fun field => (placeCode field.1 field.2).getLsbD j) := by
  induction fields generalizing fix with
  | nil => simp [placeCodes]
  | cons field fields ih =>
    rw [placeCodes, List.foldl_cons, ← placeCodes, ih, BitVec.getLsbD_or, List.any_cons, Bool.or_assoc]

/-- A bit outside every field is the fixed one. -/
theorem placeCodes_getLsbD_outside (fix : BitVec 16) {fields : List (BitVec 3 × Fin 14)} {j : Nat}
    (hout : ∀ o ∈ fields.map Prod.snd, j < o.val ∨ o.val + 3 ≤ j) : (placeCodes fix fields).getLsbD j = fix.getLsbD j := by
  have hnone : (fields.any fun field => (placeCode field.1 field.2).getLsbD j) = false := by
    rw [List.any_eq_false]
    intro field hfield
    simp [placeCode_getLsbD_outside field.1 (hout field.2 (List.mem_map_of_mem hfield))]
  rw [placeCodes_getLsbD, hnone, Bool.or_false]

/-- In a legal layout a field's bits are its code's: no fixed bit and no other code is 1 there. -/
theorem placeCodes_getLsbD_field {fix : BitVec 16} {fields : List (BitVec 3 × Fin 14)}
    (hlegal : LegalKind fix (fields.map Prod.snd)) {c : BitVec 3} {o : Fin 14} (hmem : (c, o) ∈ fields) {j : Nat}
    (hj : j < 3) : (placeCodes fix fields).getLsbD (o.val + j) = c.getLsbD j := by
  have hsymm : Std.Symm fun f g : BitVec 3 × Fin 14 => FieldsApart f.2 g.2 := ⟨fun _ _ h => Or.symm h⟩
  rw [placeCodes_getLsbD, hlegal.clear o (List.mem_map_of_mem hmem) j hj, Bool.false_or, Bool.eq_iff_iff, List.any_eq_true]
  constructor
  · rintro ⟨field, hfield, hbit⟩
    by_cases heq : (c, o) = field
    · simpa [← heq, placeCode_getLsbD_inside] using hbit
    · have hapart : FieldsApart o field.2 := (List.pairwise_map.mp hlegal.apart).forall hmem hfield heq
      have hout : o.val + j < field.2.val ∨ field.2.val + 3 ≤ o.val + j := by
        unfold FieldsApart at hapart
        omega
      simp [placeCode_getLsbD_outside field.1 hout] at hbit
  · intro hbit
    exact ⟨(c, o), hmem, by rwa [placeCode_getLsbD_inside]⟩

/-- All codes 0 leave the fixed bits. -/
theorem placeCodes_zeros (fix : BitVec 16) (os : List (Fin 14)) : placeCodes fix (os.map fun o => (0#3, o)) = fix := by
  refine BitVec.eq_of_getLsbD_eq fun j _ => ?_
  simp [placeCodes_getLsbD, placeCode_getLsbD]

/-- A code 7 sets its field's three bits, whatever else is placed. -/
theorem placeCodes_getLsbD_of_ones (fix : BitVec 16) {fields : List (BitVec 3 × Fin 14)} {o : Fin 14}
    (hmem : (7#3, o) ∈ fields) {j : Nat} (hj : j < 3) : (placeCodes fix fields).getLsbD (o.val + j) = true := by
  have hany : (fields.any fun field => (placeCode field.1 field.2).getLsbD (o.val + j)) = true := by
    rw [List.any_eq_true]
    refine ⟨(7#3, o), hmem, ?_⟩
    rw [placeCode_getLsbD_inside]
    exact (BitVec.getLsbD_allOnes (v := 3)).trans (decide_eq_true hj)
  rw [placeCodes_getLsbD, hany, Bool.or_true]

/-- With one code changed the payload is the same outside that code's field. -/
theorem placeCodes_change_outside (fix : BitVec 16) (before after : List (BitVec 3 × Fin 14)) (c c' : BitVec 3) {o : Fin 14}
    {j : Nat} (hj : j < o.val ∨ o.val + 3 ≤ j) :
    (placeCodes fix (before ++ (c, o) :: after)).getLsbD j = (placeCodes fix (before ++ (c', o) :: after)).getLsbD j := by
  simp [placeCodes_getLsbD, placeCode_getLsbD_outside _ hj]

/-- The payload of a filter frame is its bits 23 to 8. -/
theorem filterFrame_getLsbD_payload (address : BitVec 5) (payload : BitVec 16) {j : Nat} (hj : j < 16) :
    (filterFrame address payload).getLsbD (8 + j) = payload.getLsbD j := by
  have hspan : ¬ 8 + j < 8 := by omega
  rw [filterFrame, withCrc_getLsbD, if_neg hspan, Nat.add_sub_cancel_left, requestSpan, BitVec.getLsbD_append, if_pos hj]

theorem framePayload_filterFrame (address : BitVec 5) (payload : BitVec 16) :
    framePayload (filterFrame address payload) = payload := by
  refine BitVec.eq_of_getLsbD_eq fun j hj => ?_
  simp [framePayload, filterFrame_getLsbD_payload, hj]

/-- Frames whose payloads differ, and only inside one field, differ as R137 says: at most three adjacent bits of the spans
differ, so the CRC bytes do too. -/
theorem changesOnlyField_filterFrame (address : BitVec 5) {p p' : BitVec 16} {o : Fin 14}
    (hout : ∀ j, j < o.val ∨ o.val + 3 ≤ j → p.getLsbD j = p'.getLsbD j) (hne : p ≠ p') :
    changesOnlyField o (filterFrame address p) (filterFrame address p') := by
  have ho := o.isLt
  have hspan : ∀ i, i < o.val ∨ o.val + 3 ≤ i →
      (requestSpan true address p).getLsbD i = (requestSpan true address p').getLsbD i := by
    intro i hi
    simp only [requestSpan, BitVec.getLsbD_append, hout i hi]
  have hspans : requestSpan true address p ≠ requestSpan true address p' := by
    intro h
    have hpayload := congrArg (BitVec.extractLsb' 0 16) h
    simp only [requestSpan, BitVec.extractLsb'_append_eq_right] at hpayload
    exact hne hpayload
  constructor
  · intro j hj hfield
    have hlow : ¬ j < 8 := by omega
    simp only [filterFrame, withCrc_getLsbD, hlow, if_false, hspan (j - 8) (by omega)]
  · simp only [filterFrame, frameCrc_withCrc]
    exact crc24_ne_of_burst (lo := o.val) (by omega) (fun i hi => hspan i (by omega)) hspans

section
variable {fix : BitVec 16}

/-- A code changed in a legal layout, all others kept, changes the frame only in that code's field and the CRC byte. -/
theorem changesOnlyField_of_code_ne (address : BitVec 5) (before after : List (BitVec 3 × Fin 14)) {c c' : BitVec 3}
    {o : Fin 14} (hlegal : LegalKind fix ((before ++ (c, o) :: after).map Prod.snd)) (hne : c ≠ c') :
    changesOnlyField o (filterFrame address (placeCodes fix (before ++ (c, o) :: after)))
      (filterFrame address (placeCodes fix (before ++ (c', o) :: after))) := by
  refine changesOnlyField_filterFrame address (fun j hj => placeCodes_change_outside fix before after c c' hj) fun h => ?_
  have hlegal' : LegalKind fix ((before ++ (c', o) :: after).map Prod.snd) := by simpa using hlegal
  refine hne (BitVec.eq_of_getLsbD_eq fun j hj => ?_)
  rw [← placeCodes_getLsbD_field hlegal List.mem_append_cons_self hj,
    ← placeCodes_getLsbD_field hlegal' List.mem_append_cons_self hj, h]

/-- In a legal layout a code reads back from its field of the frame. -/
theorem filterFrame_code (address : BitVec 5) {fields : List (BitVec 3 × Fin 14)}
    (hlegal : LegalKind fix (fields.map Prod.snd)) {c : BitVec 3} {o : Fin 14} (hmem : (c, o) ∈ fields) :
    (filterFrame address (placeCodes fix fields)).extractLsb' (8 + o.val) 3 = c := by
  have ho := o.isLt
  refine BitVec.eq_of_getLsbD_eq fun j hj => ?_
  rw [BitVec.getLsbD_extractLsb', Nat.add_assoc, filterFrame_getLsbD_payload _ _ (by omega),
    placeCodes_getLsbD_field hlegal hmem hj, decide_eq_true hj, Bool.true_and]

/-- A payload bit outside every field is the fixed one. -/
theorem filterFrame_fixed (address : BitVec 5) {fields : List (BitVec 3 × Fin 14)} {j : Nat} (hj : j < 16)
    (hout : ∀ o ∈ fields.map Prod.snd, j < o.val ∨ o.val + 3 ≤ j) :
    (filterFrame address (placeCodes fix fields)).getLsbD (8 + j) = fix.getLsbD j := by
  rw [filterFrame_getLsbD_payload address _ hj, placeCodes_getLsbD_outside fix hout]

/-- All codes 0 give the fixed bits as the payload. -/
theorem framePayload_filterFrame_zeros (address : BitVec 5) (os : List (Fin 14)) :
    framePayload (filterFrame address (placeCodes fix (os.map fun o => (0#3, o)))) = fix := by
  rw [framePayload_filterFrame, placeCodes_zeros]

/-- All codes 7 set every code bit. -/
theorem filterFrame_ones (address : BitVec 5) {os : List (Fin 14)} {o : Fin 14} (ho : o ∈ os) {j : Nat} (hj : j < 3) :
    (filterFrame address (placeCodes fix (os.map fun o => (7#3, o)))).getLsbD (8 + o.val + j) = true := by
  have hlt := o.isLt
  rw [Nat.add_assoc, filterFrame_getLsbD_payload address _ (by omega),
    placeCodes_getLsbD_of_ones fix (List.mem_map_of_mem ho) hj]

end

end Sys2Proof.Machine
end

section
/-! PROOFS. What FACC, FGYU and FGYD write, also when accepted, and the frames of the rules' examples under EX
(43_filter_frames.md R134 to R136). -/

namespace Sys2Proof.Machine

theorem exec_facc (ax ay az : BitVec 3) (s : State) :
    exec (.facc ax ay az) s =
      .next { s with res := filterFrame s.params.addrFacc (faccPayload s.params ax ay az) } := rfl

theorem exec_fgyu (rx rx2 : BitVec 3) (s : State) :
    exec (.fgyu rx rx2) s = .next { s with res := filterFrame s.params.addrFgyu (fgyuPayload s.params rx rx2) } := rfl

theorem after_facc_res (ax ay az : BitVec 3) (s : State) :
    (s.after (.facc ax ay az)).res = filterFrame s.params.addrFacc (faccPayload s.params ax ay az) := rfl

theorem after_fgyu_res (rx rx2 : BitVec 3) (s : State) :
    (s.after (.fgyu rx rx2)).res = filterFrame s.params.addrFgyu (fgyuPayload s.params rx rx2) := rfl

theorem after_fgyd_res (rz rz2 ry ry2 : BitVec 3) (s : State) :
    (s.after (.fgyd rz rz2 ry ry2)).res = filterFrame s.params.addrFgyd (fgydPayload s.params rz rz2 ry ry2) := rfl

/-- A command that answers next leaves the state after it. -/
theorem eq_after_of_exec {i : Instr} {s t : State} (h : exec i s = .next t) : t = s.after i := by
  rw [exec_eq_after, Host.Outcome.next.injEq] at h
  exact h.symm

/-- A frame that passes the check is the one built from its span. -/
theorem withCrc_frameTop24 {f : Word} (h : crcMatches f = true) : withCrc (frameTop24 f) = f := by
  rw [withCrc, ← (crcMatches_iff f).mp h]
  exact BitVec.extractLsb'_append_extractLsb'

/-- The frames of the examples under EX carry the right CRC byte (95_test_vectors.md). -/
theorem crcMatches_of_mem_filterExamples : ∀ f ∈ [0x84032179#32, 0x840777C4#32, 0x880021A7#32, 0x88007737#32,
    0x8C43219F#32, 0x8C7777E3#32], crcMatches f = true := by
  rw [← List.all_eq_true]
  decide +kernel

/-- A filter frame is known by its span where the CRC byte is checked. -/
theorem filterFrame_eq_of_span {address : BitVec 5} {payload : BitVec 16} {f : Word} (hcrc : crcMatches f = true)
    (hspan : requestSpan true address payload = frameTop24 f) : filterFrame address payload = f := by
  rw [filterFrame, hspan, withCrc_frameTop24 hcrc]

/-- An accepted filter command leaves the frame with its span that passes the check. -/
theorem acceptCommand_of_filterSpan {cmd : Byte} {a f : Word} {i : Instr} {s : State} {address : BitVec 5}
    {payload : BitVec 16} (hd : decode cmd a = .command i)
    (hexec : exec i s = .next { s with res := filterFrame address payload }) (hcrc : crcMatches f = true)
    (hspan : requestSpan true address payload = frameTop24 f) : acceptCommand cmd a s = .next { s with res := f } := by
  rw [acceptCommand_of_decode hd, hexec, filterFrame_eq_of_span hcrc hspan]

/-- The UNO gyro frame depends on the operand through its two selectors alone. -/
theorem acceptCommand_fgyu_congr {a a' : Word} (hrx : a.extractLsb' 12 3 = a'.extractLsb' 12 3)
    (hrx2 : a.extractLsb' 9 3 = a'.extractLsb' 9 3) (s : State) :
    acceptCommand 0x72#8 a s = acceptCommand 0x72#8 a' s := by
  rw [acceptCommand_of_decode (decode_fgyu a), acceptCommand_of_decode (decode_fgyu a'), hrx, hrx2]

end Sys2Proof.Machine
end

section
/-! PROOFS. Every edge completes, and a step refuses an illegal parameter set (43_filter_frames.md R132, 60_exceptions.md R152). -/

namespace Sys2Proof.Machine

/-- No command fails, and a reserved word does not stop the machine (60_exceptions.md R150, R152). -/
theorem exists_acceptCommand_next (cmd : Byte) (a : Word) (s : State) : ∃ t, acceptCommand cmd a s = .next t := by
  cases hd : decode cmd a with
  | command i => exact ⟨_, (acceptCommand_of_decode hd s).trans (exec_eq_after i s)⟩
  | reservedCommand c => exact ⟨_, acceptCommand_of_reserved hd s⟩

theorem exists_clockEdge_next (p : PortSample) (s : State) : ∃ t, clockEdge p s = .next t := by
  cases hr : p.rst with
  | true => exact ⟨applyReset s, by simp [clockEdge, hr]⟩
  | false =>
    cases hv : p.cmdValid with
    | true => simpa [clockEdge, hr, hv] using exists_acceptCommand_next p.cmd p.a s
    | false => exact ⟨s, by simp [clockEdge, hr, hv]⟩

theorem step_of_not_wellFormed {s : State} (h : s.params.wellFormed = false) : step s = .refused .illegalParameters := by
  simp [step, clockTick, h]

end Sys2Proof.Machine
end

section
/-! PROOFS. The statements about the filter frames and the parameter sets settled (43_filter_frames.md). -/

namespace Sys2Proof.Machine

/-- Settles O44: each clause is one code of a legal kind changed, with the codes before and after it kept. -/
theorem changingOneFilterCodeChangesOnlyItsField : Obligations.ChangingOneFilterCodeChangesOnlyItsField := by
  intro s hp
  obtain ⟨hacc, hgyu, hgyd, -⟩ := (wellFormed_iff s.params).mp hp
  refine ⟨fun x x' y z h => ?_, fun x y y' z h => ?_, fun x y z z' h => ?_, fun x x' y h => ?_, fun x y y' h => ?_,
    fun x x' y z w h => ?_, fun x y y' z w h => ?_, fun x y z z' w h => ?_, fun x y z w w' h => ?_⟩
  · exact changesOnlyField_of_code_ne _ [] [(y, _), (z, _)] hacc h
  · exact changesOnlyField_of_code_ne _ [(x, _)] [(z, _)] hacc h
  · exact changesOnlyField_of_code_ne _ [(x, _), (y, _)] [] hacc h
  · exact changesOnlyField_of_code_ne _ [] [(y, _)] hgyu h
  · exact changesOnlyField_of_code_ne _ [(x, _)] [] hgyu h
  · exact changesOnlyField_of_code_ne _ [] [(y, _), (z, _), (w, _)] hgyd h
  · exact changesOnlyField_of_code_ne _ [(x, _)] [(z, _), (w, _)] hgyd h
  · exact changesOnlyField_of_code_ne _ [(x, _), (y, _)] [(w, _)] hgyd h
  · exact changesOnlyField_of_code_ne _ [(x, _), (y, _), (z, _)] [] hgyd h

/-- Settles O46: in a legal kind a field holds its code, and outside the fields nothing is placed. -/
theorem filterCodesAndFixedBitsReadBack : Obligations.FilterCodesAndFixedBitsReadBack := by
  intro s hp
  obtain ⟨hacc, hgyu, hgyd, -⟩ := (wellFormed_iff s.params).mp hp
  refine ⟨fun ax ay az => ⟨_, exec_eq_after _ s, ?_⟩, fun rx rx2 => ⟨_, exec_eq_after _ s, ?_⟩,
    fun rz rz2 ry ry2 => ⟨_, exec_eq_after _ s, ?_⟩⟩
  · rw [after_facc_res, faccPayload_eq_placeCodes]
    exact ⟨filterFrame_code _ hacc (by simp), filterFrame_code _ hacc (by simp), filterFrame_code _ hacc (by simp),
      fun j hj hout => filterFrame_fixed _ hj hout⟩
  · rw [after_fgyu_res, fgyuPayload_eq_placeCodes]
    exact ⟨filterFrame_code _ hgyu (by simp), filterFrame_code _ hgyu (by simp),
      fun j hj hout => filterFrame_fixed _ hj hout⟩
  · rw [after_fgyd_res, fgydPayload_eq_placeCodes]
    exact ⟨filterFrame_code _ hgyd (by simp), filterFrame_code _ hgyd (by simp), filterFrame_code _ hgyd (by simp),
      filterFrame_code _ hgyd (by simp), fun j hj hout => filterFrame_fixed _ hj hout⟩

/-- Settles O47: masks that do not meet are fields apart, and a slot's lowest bit is its code's or the one below. -/
theorem legalParametersMeetTheConstraints : Obligations.LegalParametersMeetTheConstraints := by
  intro p
  rw [wellFormed_iff, accelSlotsLegal_iff, List.forall_mem_cons, List.forall_mem_cons, List.forall_mem_singleton]
  constructor
  · rintro ⟨⟨hacc, hfacc⟩, ⟨hgyu, hfgyu⟩, ⟨hgyd, hfgyd⟩, hslots⟩
    exact ⟨⟨hacc, hgyu, hgyd⟩, hfacc, hfgyu, hfgyd, hslots⟩
  · rintro ⟨⟨hacc, hgyu, hgyd⟩, hfacc, hfgyu, hfgyd, hslots⟩
    exact ⟨⟨hacc, hfacc⟩, ⟨hgyu, hfgyu⟩, ⟨hgyd, hfgyd⟩, hslots⟩

/-- Settles O49: every edge answers next, and the parameter set alone decides whether the edge is taken. -/
theorem stepCompletesUnlessParametersAreIllegal : Obligations.StepCompletesUnlessParametersAreIllegal := by
  refine fun s => ⟨fun hp => ?_, step_of_not_wellFormed⟩
  rw [step_of_wellFormed hp]
  exact exists_clockEdge_next _ _

/-- Settles O37: `RES` takes the frame of the placed codes; each example's frame passes the check and has the span built. -/
theorem faccBuildsTheAccelerometerFrame : Obligations.FaccBuildsTheAccelerometerFrame := by
  refine ⟨fun s ax ay az => exec_facc ax ay az s, decode_facc, fun s t h => ?_, fun s t o j h ho hj => ?_,
    fun s hex => ⟨?_, ?_, ?_⟩⟩
  · rw [eq_after_of_exec h]
    exact framePayload_filterFrame_zeros _ s.params.faccFields
  · rw [eq_after_of_exec h]
    exact filterFrame_ones _ ho hj
  all_goals
    exact acceptCommand_of_filterSpan (decode_facc _) (exec_facc _ _ _ s)
      (crcMatches_of_mem_filterExamples _ (by decide)) (by rw [hex]; decide)

/-- Settles O38: `RES` takes the frame of the placed codes; the two operands of the corner case have the same selectors. -/
theorem fgyuBuildsTheUnoGyroFrame : Obligations.FgyuBuildsTheUnoGyroFrame := by
  refine ⟨fun s rx rx2 => exec_fgyu rx rx2 s, decode_fgyu, acceptCommand_fgyu_congr rfl rfl, fun s hex => ⟨?_, ?_, ?_⟩⟩
  all_goals
    exact acceptCommand_of_filterSpan (decode_fgyu _) (exec_fgyu _ _ s)
      (crcMatches_of_mem_filterExamples _ (by decide)) (by rw [hex]; decide)

/-- Settles O39: `RES` takes the frame of the placed codes; each example's frame passes the check and has the span built. -/
theorem fgydBuildsTheDueGyroFrame : Obligations.FgydBuildsTheDueGyroFrame := by
  refine ⟨fun s rz rz2 ry ry2 => exec_fgyd rz rz2 ry ry2 s, decode_fgyd, fun s t o j h ho hj => ?_, fun s hex => ⟨?_, ?_⟩⟩
  · rw [eq_after_of_exec h]
    exact filterFrame_ones _ ho hj
  all_goals
    exact acceptCommand_of_filterSpan (decode_fgyd _) (exec_fgyd _ _ _ _ s)
      (crcMatches_of_mem_filterExamples _ (by decide)) (by rw [hex]; decide)

/-- Settles O48: the fields of EX are four bits apart and its fixed bits are all 0. -/
theorem exampleParametersAreLegal : Obligations.ExampleParametersAreLegal :=
  ⟨by decide, rfl, rfl, rfl, rfl, rfl⟩

end Sys2Proof.Machine
end

section
/-! PROOFS. What sets `ERR` and what it does to the commands after it: a reserved word alone, and nothing (60_exceptions.md R150, R152). -/

namespace Sys2Proof.Machine

theorem acceptCommand_of_reservedWord {cmd : Byte} (h : reservedWord cmd = true) (a : Word) (s : State) :
    acceptCommand cmd a s = .next { s with err := true } :=
  acceptCommand_of_reserved ((decode_eq_reserved_iff cmd a).mpr h) s

/-- `ERR` changes nothing a command does, and a command hands it on (R150). -/
theorem after_with_err (s : State) (i : Instr) (e : Bool) :
    State.after { s with err := e } i = { s.after i with err := e } := by
  cases i <;> rfl

theorem definedAhead_iff (s : State) :
    s.definedAhead = true ↔ ∀ p ∈ s.inputs, p.rst = false → p.cmdValid = true → reservedWord p.cmd = false := by
  simp [State.definedAhead, or_iff_not_imp_left]

theorem clean_iff (s : State) : s.clean = true ↔ s.err = false ∧ s.definedAhead = true := by
  simp [State.clean]

/-- The sampled edge presents no reserved word either: the idle sample past the list's end presents no command. -/
theorem sampleInputs_not_reserved_of_definedAhead {s : State} (h : s.definedAhead = true)
    (hr : (sampleInputs s).1.rst = false) (hv : (sampleInputs s).1.cmdValid = true) :
    reservedWord (sampleInputs s).1.cmd = false := by
  cases hin : s.inputs with
  | nil => simp [sampleInputs_nil hin] at hv
  | cons p ps =>
    rw [sampleInputs_cons hin] at hr hv ⊢
    exact (definedAhead_iff s).mp h p (by simp [hin]) hr hv

theorem step_keeps_definedAhead {s t : State} (h : step s = .next t) (hs : s.definedAhead = true) :
    t.definedAhead = true := by
  obtain ⟨-, hin⟩ := step_params_inputs h
  rw [definedAhead_iff, hin]
  exact fun p hp => (definedAhead_iff s).mp hs p (List.mem_of_mem_drop hp)

/-- A reset edge clears `ERR`, a command keeps it, and a reserved word is not presented. -/
theorem clockEdge_keeps_err_clear {p : PortSample} {s t : State} (h : clockEdge p s = .next t)
    (hp : p.rst = false → p.cmdValid = true → reservedWord p.cmd = false) (he : s.err = false) : t.err = false := by
  obtain ⟨-, rfl⟩ | ⟨hr, hv, ha⟩ | ⟨-, -, rfl⟩ := clockEdge_cases h
  · exact applyReset_err s
  · obtain ⟨i, -, -, rfl⟩ | ⟨hres, -⟩ := acceptCommand_next_cases ha
    · exact (after_err s i).trans he
    · simp [hp hr hv] at hres
  · exact he

theorem step_keeps_err_clear {s t : State} (h : step s = .next t) (hs : s.definedAhead = true) (he : s.err = false) :
    t.err = false := by
  obtain ⟨-, hedge⟩ := step_cases h
  obtain ⟨-, -, -, herr, -, -⟩ := sampleInputs_frame s
  exact clockEdge_keeps_err_clear hedge (sampleInputs_not_reserved_of_definedAhead hs) (herr.trans he)

end Sys2Proof.Machine
end

section
/-! PROOFS. The statements about the one exception and NOP settled (60_exceptions.md). -/

namespace Sys2Proof.Machine

/-- Settles O51: an edge that presents no reserved word keeps `ERR` clear, and the commands to come only get fewer. -/
theorem cleanHostNeverSetsErr : Obligations.CleanHostNeverSetsErr := by
  intro s t hs h
  obtain ⟨he, hd⟩ := (clean_iff s).mp hs
  exact (clean_iff t).mpr ⟨step_keeps_err_clear h hd he, step_keeps_definedAhead h hd⟩

/-- Settles O6: the edge accepts the reserved word, and each command leaves `s.after i` with the `ERR` it was given. -/
theorem reservedWordSetsErrAndNothingElse : Obligations.ReservedWordSetsErrAndNothingElse := by
  refine ⟨fun s cmd a ps hp hin hres => ?_, fun i s => ⟨s.after i, exec_eq_after i s, ?_⟩⟩
  · rw [step_of_wellFormed hp, sampleInputs_cons hin]
    exact acceptCommand_of_reservedWord hres a _
  · rw [exec_eq_after, after_with_err]

/-- Settles O20: 0x00 decodes to NOP, whose meaning is the state itself, and 0x01 to 0x0F are the first reserved range of R66. -/
theorem nopChangesNothing : Obligations.NopChangesNothing := by
  have haccept (s : State) (a : Word) : acceptCommand 0x00#8 a s = .next s := acceptCommand_of_decode (decode_nop a) s
  refine ⟨fun s => rfl, decode_nop, haccept, fun cmd a hlo hhi => ?_, fun s cmd a a' => (haccept s a').symm⟩
  exact (reservedWordsAreExactlyTheListedRanges.1 cmd a).mpr (.inl ⟨hlo, hhi⟩)

end Sys2Proof.Machine
end

section
/-! PROOFS. What an edge with `rst` = 1 does, whatever command is presented with it (60_exceptions.md R153, 70_reset_and_hazards.md R170). -/

namespace Sys2Proof.Machine

/-- The four elements' values are constants; the parameters and the inputs still to come are kept (10_state.md R30). -/
theorem applyReset_eq_mk (s : State) :
    applyReset s = ⟨0x00000000#32, 0xFF#8, false, false, s.params, s.inputs⟩ := rfl

/-- Reset wins over a command of the same cycle (R153). -/
theorem clockEdge_of_rst {p : PortSample} (h : p.rst = true) (s : State) : clockEdge p s = .next (applyReset s) := by
  simp [clockEdge, h]

end Sys2Proof.Machine
end

section
/-! PROOFS. The statement about the reset edge settled (70_reset_and_hazards.md). -/

namespace Sys2Proof.Machine

/-- Settles O2: the edge samples `rst` = 1, so it resets the state that is left once the sample is consumed. -/
theorem resetEdgeTakesEveryElementToItsResetValue : Obligations.ResetEdgeTakesEveryElementToItsResetValue := by
  intro s cmdValid cmd a ps hp hin
  rw [step_of_wellFormed hp, sampleInputs_cons hin, clockEdge_of_rst rfl, applyReset_eq_mk]

end Sys2Proof.Machine
end

section
/-! PROOFS. What an edge does when no sample is lined up for it (10_state.md section 2). -/

namespace Sys2Proof.Machine

/-- With `rst` = 0 and `cmd_valid` = 0 the block does nothing, whatever is on `cmd` and `a` (30_encoding.md R61). -/
theorem clockEdge_of_not_presented {p : PortSample} (hr : p.rst = false) (hv : p.cmdValid = false) (s : State) :
    clockEdge p s = .next s := by
  simp [clockEdge, hr, hv]

/-- Settles O4: the edge samples the idle inputs, which neither reset nor present a command, and consumes nothing. -/
theorem edgeWithNothingLinedUpIsIdle : Obligations.EdgeWithNothingLinedUpIsIdle := by
  intro s hp hin
  rw [step_of_wellFormed hp, sampleInputs_nil hin, clockEdge_of_not_presented idle_rst idle_cmdValid]

end Sys2Proof.Machine
end
